-- ==== Sys2Proof/Word.lean ====
section
/-!
DEFINITION. The word types of the CR-24: an octet of the restoration line or of the car link, and the sixteen-bit
register of the check word. Every other quantity of the spec is a number (a draw, a stamp, a time), not a word.
-/

namespace Sys2Proof

/-- Eight bits (00_scope, Terms: Octet). -/
abbrev Byte := BitVec 8

/-- The sixteen-bit check word (R84). -/
abbrev Half := BitVec 16

end Sys2Proof
end

