-- ==== Sys2Proof/Syntax.lean ====
section
/-!
DEFINITION. The commands of the CR-24: one constructor for each row of spec/opcode_table.json, in the table's order.
The table names no operands; each constructor carries what the spec says the event brings with it: the field octets of
a request (R171), the level a contact now reads, the period a pulse closes, what the other stations have put on the line.
-/

namespace Sys2Proof

/-- The two readings of the transfer-switch contact (R61). -/
inductive TrnReading where
  | normal
  | emergency
deriving DecidableEq, Repr

/-- The two readings of the generator-ready contact (R63). -/
inductive GokReading where
  | asserted
  | negated
deriving DecidableEq, Repr

/-- The two readings of the RESET pin (R132): a cold reset lasts until it is released. -/
inductive ResetReading where
  | asserted
  | released
deriving DecidableEq, Repr

/-- What a cold reset finds on the strap pins and on RESET (R98, R132). -/
structure ResetPins where
  straps : BitVec 6
  reset : ResetReading := .released
deriving DecidableEq, Repr

/-- The two levels of the restoration line (R79). -/
inductive Level where
  | dominant
  | recessive
deriving DecidableEq, Repr

/-- What the other stations of the tower leave on the line from an instant on (R79): dominant while any of them drives. The
instant is in microseconds from the leading edge of the activity in progress, or of the next on a quiet line, and from the reset
while the receiver waits for its first base gap (log 5). -/
structure LineChange where
  after : Nat
  level : Level
deriving DecidableEq, Repr

/-- Why a request frame is discarded (R167). -/
inductive DiscardCause where
  /-- the octets do not sum to 0 modulo 256 -/
  | checksum
  /-- a known request code with a length other than R171 gives -/
  | wrongLength
  /-- an octet whose stop bit reads low -/
  | octetFraming
  /-- a length octet above 42: the receiver discards from there on -/
  | lengthAbove42
deriving DecidableEq, Repr

/-- The commands, in the order of spec/opcode_table.json. A COLD_RESET brings the straps and what RESET then reads: asserted, the
reset begins and lasts; released, it ends, and so it does after a pulse of RESET taken whole and after power-on (log 21). -/
inductive Instr where
  | coldReset (pins : ResetPins)
  | configure (record : List Byte)
  | query
  | sense
  | clearConditions
  | readObserved
  | readStation (station : Byte)
  | carReport (position landing occupancy reserved : Byte)
  | restart
  | tripRequest (direction load reserved : Byte)
  | tripCancel (tripId : Byte)
  | tripEnd (tripId position landing reserved : Byte)
  | serviceSelect (value reserved : Byte)
  | callEvent (source reserved : Byte)
  | unknownRequestCode (code : Byte) (fields : List Byte)
  | requestDiscarded (cause : DiscardCause)
  | requestGapExpiry
  | discardQuietExpiry
  | replySent
  | trnChange (reading : TrnReading)
  | trnDebounceExpiry
  | gokChange (reading : GokReading)
  | gokDebounceExpiry
  | capChange (code : Fin 8)
  | capDebounceExpiry
  | fsnPulse (period : Nat)
  | absenceExpiry
  | inWindowHalfSecond
  | underTimerExpiry
  | capacityHoldExpiry
  | settleTimerExpiry
  | lineActivityStart
  | longDominantExpiry
  | endOfActivity (changes : List LineChange)
  | roundClose
  | slotExpiry
  | readbackMismatch
  | attemptJoined
  | presenceDueExpiry
  | recordStale (station : Nat)
  | startWindowExpiry
  | joinTimerExpiry
  | occupancyHoldExpiry
  | runLimitExpiry
  | landingDwellExpiry
  | idleTimerExpiry
  | agingExpiry
  | patienceExpiry
  | shedHoldExpiry
  | fallbackTripStart
  | ownWindowClose
  | firstBaseGap
deriving DecidableEq, Repr

end Sys2Proof
end

