-- ==== Sys2Proof/WellFormed.lean ====
section
/-!
DEFINITION. Which commands the outside world can send: the operands that the spec's own words allow. A meaning is total
on the others as well; what it answers there is nothing the part can be asked.
-/

namespace Sys2Proof

/-- A request code of the table of R171. -/
def knownCode (code : Nat) : Bool := decide (1 ≤ code ∧ code ≤ 13)

/-- The changes come in the order of their instants. -/
def rising : List LineChange → Bool
  | [] | [_] => true
  | c :: d :: rest => decide (c.after < d.after) && rising (d :: rest)

/-- The operand checks, one for each command whose operands the spec bounds. -/
def wellFormed (i : Instr) : Bool :=
  match i with
  | .configure record => record.length == 42
  | .unknownRequestCode code fields => !knownCode code.toNat && decide (fields.length ≤ 42)
  | .fsnPulse period => decide (0 < period)
  | .endOfActivity changes => rising changes
  | .recordStale station => decide (1 ≤ station ∧ station ≤ 62)
  | .coldReset _ | .query | .sense | .clearConditions | .readObserved | .readStation _ | .carReport _ _ _ _
  | .restart | .tripRequest _ _ _ | .tripCancel _ | .tripEnd _ _ _ _ | .serviceSelect _ _ | .callEvent _ _
  | .requestDiscarded _ | .requestGapExpiry | .discardQuietExpiry | .replySent | .trnChange _ | .trnDebounceExpiry
  | .gokChange _ | .gokDebounceExpiry | .capChange _ | .capDebounceExpiry | .absenceExpiry | .inWindowHalfSecond
  | .underTimerExpiry | .capacityHoldExpiry | .settleTimerExpiry | .lineActivityStart | .longDominantExpiry
  | .roundClose | .slotExpiry | .readbackMismatch | .attemptJoined | .presenceDueExpiry | .startWindowExpiry
  | .joinTimerExpiry | .occupancyHoldExpiry | .runLimitExpiry | .landingDwellExpiry | .idleTimerExpiry
  | .agingExpiry | .patienceExpiry | .shedHoldExpiry | .fallbackTripStart | .ownWindowClose | .firstBaseGap => true

end Sys2Proof
end

