-- ==== Sys2Proof/Decode.lean ====
section
/-!
DEFINITION. Reading commands from bits. No row of spec/opcode_table.json gives bits, so no table word spells a command.
The car link does give its requests bits (R166, R167, R171): readFrame reads the command a received frame is, and
requestFrame is the frame of a request.
-/

namespace Sys2Proof

/-- The command a table word spells: none, since no row of the table gives bits (log 24). -/
def decodeTableWord (_nbits _w : Nat) : Option Instr := none

/-- The number of field octets of each request code (R171); none for an unknown code. -/
def requestLength (code : Nat) : Option Nat :=
  match code with
  | 1 => some 42
  | 2 => some 0
  | 3 => some 0
  | 4 => some 0
  | 5 => some 0
  | 6 => some 1
  | 7 => some 4
  | 8 => some 0
  | 9 => some 3
  | 10 => some 1
  | 11 => some 4
  | 12 => some 2
  | 13 => some 2
  | _ => none

/-- The sum of the octets modulo 256 (R166). -/
def octetSum (octets : List Byte) : Nat := (octets.map BitVec.toNat).sum % 256

/-- The checksum octet: with it the frame sums to 0 modulo 256 (R166). -/
def checksumOf (octets : List Byte) : Byte := BitVec.ofNat 8 (256 - octetSum octets)

/-- One frame of the car link: its first octet (request code or status), a length octet, the fields, a checksum (R166). -/
def linkFrame (first : Byte) (body : List Byte) : List Byte :=
  let front := first :: BitVec.ofNat 8 body.length :: body
  front ++ [checksumOf front]

/-- The request that a known code with its fields is (R171). -/
def requestOf (code : Nat) (fields : List Byte) : Option Instr :=
  match code, fields with
  | 1, record => some (.configure record)
  | 2, [] => some .query
  | 3, [] => some .sense
  | 4, [] => some .clearConditions
  | 5, [] => some .readObserved
  | 6, [station] => some (.readStation station)
  | 7, [position, landing, occupancy, reserved] => some (.carReport position landing occupancy reserved)
  | 8, [] => some .restart
  | 9, [direction, load, reserved] => some (.tripRequest direction load reserved)
  | 10, [tripId] => some (.tripCancel tripId)
  | 11, [tripId, position, landing, reserved] => some (.tripEnd tripId position landing reserved)
  | 12, [value, reserved] => some (.serviceSelect value reserved)
  | 13, [source, reserved] => some (.callEvent source reserved)
  | _, _ => none

/-- The command that the octets of one frame are, as R167 judges them, and whether an octet of the frame had a low stop
bit. Octets too few for the length they announce are an unfinished request, ended by the 10 ms gap. -/
def readFrame (octets : List Byte) (framingBad : Bool) : Instr :=
  match octets with
  | code :: length :: rest =>
    if 42 < length.toNat then .requestDiscarded .lengthAbove42
    else if rest.length ≠ length.toNat + 1 then .requestGapExpiry
    else if framingBad then .requestDiscarded .octetFraming
    else if octetSum octets ≠ 0 then .requestDiscarded .checksum
    else
      let fields := rest.take length.toNat
      match requestLength code.toNat with
      | none => .unknownRequestCode code fields
      | some n =>
        if n ≠ length.toNat then .requestDiscarded .wrongLength
        else (requestOf code.toNat fields).getD (.requestDiscarded .wrongLength)
  | _ => .requestGapExpiry

/-- The frame of a command that is a request of the car link; none for every other command (R166, R171). -/
def requestFrame (i : Instr) : Option (List Byte) :=
  match i with
  | .configure record => some (linkFrame 1 record)
  | .query => some (linkFrame 2 [])
  | .sense => some (linkFrame 3 [])
  | .clearConditions => some (linkFrame 4 [])
  | .readObserved => some (linkFrame 5 [])
  | .readStation station => some (linkFrame 6 [station])
  | .carReport position landing occupancy reserved => some (linkFrame 7 [position, landing, occupancy, reserved])
  | .restart => some (linkFrame 8 [])
  | .tripRequest direction load reserved => some (linkFrame 9 [direction, load, reserved])
  | .tripCancel tripId => some (linkFrame 10 [tripId])
  | .tripEnd tripId position landing reserved => some (linkFrame 11 [tripId, position, landing, reserved])
  | .serviceSelect value reserved => some (linkFrame 12 [value, reserved])
  | .callEvent source reserved => some (linkFrame 13 [source, reserved])
  | .unknownRequestCode code fields => some (linkFrame code fields)
  | .coldReset _ | .requestDiscarded _ | .requestGapExpiry | .discardQuietExpiry | .replySent | .trnChange _
  | .trnDebounceExpiry | .gokChange _ | .gokDebounceExpiry | .capChange _ | .capDebounceExpiry | .fsnPulse _
  | .absenceExpiry | .inWindowHalfSecond | .underTimerExpiry | .capacityHoldExpiry | .settleTimerExpiry
  | .lineActivityStart | .longDominantExpiry | .endOfActivity _ | .roundClose | .slotExpiry
  | .readbackMismatch | .attemptJoined | .presenceDueExpiry | .recordStale _ | .startWindowExpiry | .joinTimerExpiry
  | .occupancyHoldExpiry | .runLimitExpiry | .landingDwellExpiry | .idleTimerExpiry | .agingExpiry | .patienceExpiry
  | .shedHoldExpiry | .fallbackTripStart | .ownWindowClose | .firstBaseGap => none

/-- The bits of one car-link octet in the order they go on the link, false low: start bit, eight data bits least
significant first, one stop bit, no parity (R166). -/
def serialOctet (b : Byte) : List Bool :=
  false :: ((List.range 8).map fun i => b.getLsbD i) ++ [true]

end Sys2Proof
end

