-- ==== Sys2Proof/Config.lean ====
section
/-!
DEFINITION. What the part fixes for every configuration (the spec's own times and limits) and the free values: the
things the spec leaves open. All times are microseconds (log 1).
-/

namespace Sys2Proof.Config

/-- One bit time of the restoration line, 10 µs (00_scope, Terms). -/
def bitTime : Nat := 10

def millisecond : Nat := 1000

def second : Nat := 1000000

/-- The base gap: 12 bit times recessive end an activity (R82). -/
def baseGap : Nat := 12 * bitTime

/-- The round closes after 920 quiet bit times (R101). -/
def roundLength : Nat := 920 * bitTime

/-- 16 dominant bit times are a long dominant level (R83). -/
def longDominant : Nat := 16 * bitTime

/-- The debounce times of TRN, and of GOK and CAP (R61, R63, R64). -/
def trnDebounce : Nat := 500 * millisecond

def contactDebounce : Nat := 200 * millisecond

/-- 100 ms with no pulse make the class ABSENT (R66). -/
def absenceTime : Nat := 100 * millisecond

/-- The in-window time that settles the frequency (R51, R74). -/
def inWindowSettled : Nat := 500 * millisecond

/-- The in-window time holds at 65535 ms (R67). -/
def inWindowLimit : Nat := 65535 * millisecond

/-- The UNDER time that derates (R72). -/
def underTime : Nat := 2 * second

/-- The occupancy hold (R126). -/
def occupancyHoldTime : Nat := 3 * second

/-- The two start windows (R122). -/
def firstWindow : Nat := 60 * second

def laterWindow : Nat := 15 * second

/-- The gap that ends a request, and the quiet that ends DISCARDING (R167). -/
def linkGap : Nat := 10 * millisecond

/-- Eight failures in a row are a line fault (R114). -/
def failureLimit : Nat := 8

/-- The observation queue holds 16 entries (R178). -/
def queueLimit : Nat := 16

/-- A sum over stations is held at 65535 (R42). -/
def sumLimit : Nat := 65535

/-- The maxima a record holds until its station declares them (R21). -/
def undeclaredDmax : Nat := 2200

def undeclaredGmax : Nat := 1530

/-- The floor keeps every stored stamp at most this far behind the mark (R32). -/
def stampReach : Nat := 32766

/-- The stamps are a ring of this many values (R30). -/
def stampRing : Nat := 65535

/-- The time fields that the spec reports in a unit without saying how a part of a unit is rounded (log 8). -/
inductive TimeField where
  | startWindowLeft
  | shedHoldLeft
  | nextWindow
  | inWindow
  | recordAge
deriving DecidableEq, Repr

/-- Free value (log 8): whether a part of a unit counts as a whole one in a reported time. -/
opaque partCounts : TimeField → Bool

/-- Free value (log 9): the trip id octet of a QUERY reply taken while the trip record is NONE. -/
opaque noTripId : Nat → BitVec 8

/-- Free value (log 9): the trip class octet of a QUERY reply taken while the trip record is NONE. -/
opaque noTripClass : Nat → BitVec 8

end Sys2Proof.Config
end

