-- ==== Sys2Proof/Machine/State.lean ====
section
/-!
DEFINITION. The state of the CR-24, unit by unit, as plain data. The default value of each field is its value after a
cold reset (R2, R18, R43, R47, R77, R98, R99, R119, R132, R134, R167, R169, R170, R177, R178).
-/

namespace Sys2Proof.Machine

/-- A timer counts from the instant it was started; its time is the clock less that instant (00_scope, Times). -/
inductive Timer where
  | stopped
  | running (since : Nat)
deriving DecidableEq, Repr

/-- The settle timer (R73). -/
inductive SettleTimer where
  | stopped
  | running (since : Nat)
  | expired
deriving DecidableEq, Repr

/-- The patience timer (R57); an expired one starts again only after a break (R58). -/
inductive PatienceTimer where
  | stopped
  | running (since : Nat)
  | expired
deriving DecidableEq, Repr

/-- The shed hold with its timer (R157). -/
inductive ShedHold where
  | clear
  | timing (since : Nat)
  | awaitDemand
deriving DecidableEq, Repr

/-- The sixteen states of the car sequencer (R118). -/
inductive SeqState where
  | unconfigured
  | dormant
  | awaitSupply
  | noSupply
  | joining
  | assess
  | evacWait
  | evacRun
  | landed
  | parked
  | serviceWait
  | serviceRun
  | serviceIdle
  | shedPending
  | fallback
  | isolated
deriving DecidableEq, Repr

/-- The four speed steps (R11, R88). -/
inductive SpeedStep where
  | p25
  | p50
  | p75
  | p100
deriving DecidableEq, Repr

/-- A car position as the car controller reports it (R125). -/
inductive Position where
  | atLanding
  | between
  | lost
deriving DecidableEq, Repr

/-- The trip's direction (R3). -/
inductive Direction where
  | up
  | down
deriving DecidableEq, Repr

/-- The stored CONFIGURE record, defaults applied (R173), with the declared maxima computed from it (R13). Draws are in
LU, the times in the units of R173 (seconds, the report interval in 100 ms). -/
structure Configuration where
  bal : Nat := 0
  full : Nat := 0
  loss : Nat := 0
  rgs : Nat := 0
  start : Nat := 0
  stby : Nat := 0
  lspd : SpeedStep := .p25
  sstep : Nat := 0
  rsv : Nat := 0
  stepa : Nat := 0
  absorb : Nat := 0
  phant : Nat := 0
  census : Nat := 0
  fnom : Nat := 50
  settleTime : Nat := 0
  holdTime : Nat := 0
  agingTime : Nat := 0
  patience : Nat := 0
  reportInterval : Nat := 0
  runLimit : Nat := 0
  dwell : Nat := 0
  idleTime : Nat := 0
  window : Nat := 0
  unmaskStale : Bool := false
  unmaskPhantom : Bool := false
  unmaskRange : Bool := false
  idleRestartMask : Byte := 0
  wakeMask : Byte := 0
  dmax : Nat := 0
  gmax : Nat := 0
deriving DecidableEq, Repr

/-- The power-system inputs and RESET as they read now (00_scope, Connections; R132). -/
structure Pins where
  reset : ResetReading := .released
  trn : TrnReading := .normal
  gok : GokReading := .negated
  cap : Fin 8 := 0
deriving DecidableEq, Repr

/-- The two figures of one speed step, or of a wake trip (R6 to R9, R12). -/
structure StepFigures where
  draw : Int
  start : Nat
deriving DecidableEq, Repr

/-- A trip's figures: four steps of a run trip, or the single set of a wake trip (R11, R12). The trip's kind is which. -/
inductive Figures where
  | run (at25 at50 at75 at100 : StepFigures)
  | wake (set : StepFigures)
deriving DecidableEq, Repr

/-- RUN or WAKE. -/
inductive TripKind where
  | run
  | wake
deriving DecidableEq, Repr

inductive Purpose where
  | evacuation
  | service
deriving DecidableEq, Repr

/-- The state a trip record was created in (R134). FALLBACK is the model's own value, for the records of R160 (log 23). -/
inductive Origin where
  | assess
  | evacWait
  | serviceIdle
  | parked
  | fallback
deriving DecidableEq, Repr

/-- The states of a trip record other than NONE (R134). -/
inductive TripPhase where
  | pending
  | armed
  | running
  | ending
deriving DecidableEq, Repr

/-- The draw and the stamp the car held when a cancel found its CLAIM sending (R134, R144). -/
structure Standing where
  draw : Int
  stamp : Nat
deriving DecidableEq, Repr

/-- The own trip record (R134). -/
structure Trip where
  id : Fin 16
  purpose : Purpose
  cls : Nat
  origin : Origin
  figures : Figures
  step : Option SpeedStep := none
  cancel : Bool := false
  prior : Option Standing := none
  phase : TripPhase := .pending
deriving DecidableEq, Repr

/-- The car report record (R125). -/
structure CarReport where
  position : Position := .lost
  landing : Byte := 0
  fresh : Bool := false
deriving DecidableEq, Repr

/-- The own CLAIM that last completed: its record as a cancel would have left it, with the cancel mark set and the standing held
before the completion, and the instant of the completion. A TRIP-CANCEL of that very instant reads it (R115, R144, log 45). -/
structure CompletedClaim where
  trip : Trip
  instant : Nat
deriving DecidableEq, Repr

/-- The car sequencer (R118, R119, R132, R134, R157). -/
structure Sequencer where
  state : SeqState := .unconfigured
  runp : Bool := true
  spd : SpeedStep := .p100
  shdn : Bool := false
  emop : Bool := false
  commitment : Int := 0
  claimClass : Nat := 0
  stamp : Nat := 0
  tripCounter : Fin 16 := 0
  lastTripId : Fin 16 := 0
  serviceSelected : Bool := false
  lockout : Bool := false
  occupancy : Bool := false
  duplicate : Bool := false
  occupancyHold : Timer := .stopped
  firstTakeover : Bool := true
  sessionOrigin : Option Nat := none
  report : CarReport := {}
  startWindow : Timer := .stopped
  startWindowLength : Nat := 0
  joinTimer : Timer := .stopped
  runTimer : Timer := .stopped
  dwellTimer : Timer := .stopped
  idleTimer : Timer := .stopped
  agingTimer : Timer := .stopped
  shedHold : ShedHold := .clear
  shedOwed : Bool := false
  landedMark : Bool := false
  trip : Option Trip := none
  lastClaim : Option CompletedClaim := none
deriving DecidableEq, Repr

/-- The seven condition flags (R43). -/
structure Conditions where
  stale : Bool := false
  phantom : Bool := false
  range : Bool := false
  saturate : Bool := false
  line : Bool := false
  duplicate : Bool := false
  overtime : Bool := false
deriving DecidableEq, Repr

/-- The names of the condition flags (R43). -/
inductive Condition where
  | stale
  | phantom
  | range
  | saturate
  | line
  | duplicate
  | overtime
deriving DecidableEq, Repr

/-- The outcome held in the admission view (R47, R50). -/
inductive Admission where
  | none
  | undecided
  | exceeds
  | waitHeadroom
  | waitSettle
  | admitted
deriving DecidableEq, Repr

/-- The admission view (R47). The refusal is NONE or EXCEEDS_CAPACITY. -/
structure AdmissionView where
  tripId : Fin 16 := 0
  outcome : Admission := .none
  step : Option SpeedStep := none
  mpos : Nat := 0
  gneg : Nat := 0
  cap : Nat := 0
  stepMax : Nat := 0
  unheard : Nat := 0
  stale : Nat := 0
  exceeded : Bool := false
deriving DecidableEq, Repr

/-- The shed view (R151). -/
structure ShedView where
  excess : Int := 0
  size : Nat := 0
  own : Bool := false
deriving DecidableEq, Repr

/-- The admission unit (R43, R47, R57, R58, R151). -/
structure AdmissionUnit where
  conditions : Conditions := {}
  view : AdmissionView := {}
  shedView : ShedView := {}
  patience : PatienceTimer := .stopped
  ownDemand : Option Int := none
deriving DecidableEq, Repr

/-- The frequency classes (R65, R66). -/
inductive FreqClass where
  | absent
  | inWindow
  | offWindow
  | under
deriving DecidableEq, Repr

/-- The supply monitor (R61 to R77). HOLDING is the running hold timer. -/
structure SupplyMonitor where
  trn : TrnReading := .normal
  trnTimer : Timer := .stopped
  gok : GokReading := .negated
  gokTimer : Timer := .stopped
  capCode : Fin 8 := 0
  candidate : Option (Fin 8) := none
  capTimer : Timer := .stopped
  freqClass : FreqClass := .absent
  train : Option Nat := none
  absenceTimer : Timer := .stopped
  inWindowTimer : Timer := .stopped
  inWindowHalf : Bool := false
  settle : SettleTimer := .stopped
  derate : Nat := 0
  episodeMark : Bool := false
  underTimer : Timer := .stopped
  holdTimer : Timer := .stopped
  capHeld : Nat := 0
deriving DecidableEq, Repr

/-- One station record (R21). The age is the clock less the instant the station was last heard (R22). -/
structure StationRecord where
  station : Nat
  fresh : Bool := true
  committed : Int := 0
  cls : Nat := 0
  stamp : Nat := 0
  dmax : Nat := Config.undeclaredDmax
  gmax : Nat := Config.undeclaredGmax
  summary : Option SeqState := none
  serviceSelected : Bool := false
  lockout : Bool := false
  shedPending : Bool := false
  demand : Option Int := none
  heard : Nat
deriving DecidableEq, Repr

/-- The station roster (R18, R31). Its 62 places are held as the list of the records they hold, by rising station. -/
structure Roster where
  isOpen : Bool := false
  records : List StationRecord := []
  mark : Nat := 0
deriving DecidableEq, Repr

/-- The reasons of a RELEASE (R88). -/
inductive ReleaseReason where
  | tripEnd
  | cancelled
  | overtime
  | shed
  | park
  | supply
deriving DecidableEq, Repr

/-- The content of a RELEASE (R89). -/
structure Release where
  reason : ReleaseReason
  tripId : Fin 16
  draw : Int
  stamp : Nat
deriving DecidableEq, Repr

/-- The content of a CLAIM (R90). -/
structure Claim where
  cls : Nat
  kind : TripKind
  speed : SpeedStep
  tripId : Fin 16
  draw : Int
  start : Nat
  stamp : Nat
  dmax : Nat
deriving DecidableEq, Repr

/-- The content of a PRESENCE (R91). -/
structure Presence where
  summary : SeqState
  serviceSelected : Bool
  lockout : Bool
  shedPending : Bool
  demand : Option Int
  committed : Int
  dmax : Nat
  gmax : Nat
  stamp : Nat
deriving DecidableEq, Repr

/-- The content of a line message, less its station octet and CRC (R88). -/
inductive Body where
  | release (r : Release)
  | claim (c : Claim)
  | presence (p : Presence)
deriving DecidableEq, Repr

/-- A line message: its sender and its content. -/
structure Message where
  station : Nat
  body : Body
deriving DecidableEq, Repr

/-- The last line error kind (R94). -/
inductive LineError where
  | none
  | longDominant
  | frame
  | length
  | crc
  | field
deriving DecidableEq, Repr

/-- A message on its way out: all its octets, CRC included, and the instant its first start bit was driven (R85). -/
structure Sending where
  octets : List Byte
  startedAt : Nat
deriving DecidableEq, Repr

/-- An octet that the receiver is assembling: the instant of its start-bit edge and the data bits sampled so far, the first of
them first; a recessive bit is true (R79, R81). -/
structure OctetInHand where
  start : Nat
  bits : List Bool := []
deriving DecidableEq, Repr

/-- The line unit (R79 to R87, R94, R98). `level` is the line as read at the instant `readTo`, the wired-AND of the own drive,
while the line follows it, and of what the other stations leave (R79, logs 6 and 34). `others`, `follows` and `coming`, the
changes of the others' drive told and not yet read, are inputs (log 5). The transmitter is IDLE when it is none; SENDING and
CLOSING are told apart by the clock (log 7). -/
structure LineUnit where
  others : Level := .recessive
  follows : Bool := true
  coming : List LineChange := []
  level : Level := .recessive
  readTo : Nat := 0
  changedAt : Nat := 0
  awaitingGap : Bool := true
  active : Bool := false
  startedAt : Nat := 0
  inHand : Option OctetInHand := none
  inTimeUntil : Nat := 0
  octets : List Byte := []
  octetCount : Nat := 0
  frameMark : Bool := false
  longMark : Bool := false
  endReference : Option Nat := none
  longTimer : Timer := .stopped
  transmitter : Option Sending := none
  lastError : LineError := .none
deriving DecidableEq, Repr

/-- The attempt in hand (R99, R108, R109). -/
inductive Attempt where
  | none
  | waiting (b : Body)
  | sending (b : Body)
deriving DecidableEq, Repr

/-- What the CLAIM slot holds before its choice: trip kind and trip id (R105). -/
structure ClaimPost where
  kind : TripKind
  tripId : Fin 16
deriving DecidableEq, Repr

/-- The contention unit (R99). -/
structure ContentionUnit where
  roundOpen : Bool := false
  roundTimer : Timer := .stopped
  spoken : Bool := false
  attempt : Attempt := .none
  key : Nat := 0
  slotDeadline : Option Nat := none
  failures : Nat := 0
  presenceTimer : Timer := .stopped
  releaseSlot : Option Release := none
  superseded : Bool := false
  claimSlot : Option ClaimPost := none
  withdrawn : Bool := false
  presenceDue : Bool := false
  remarked : Bool := false
deriving DecidableEq, Repr

/-- The request receiver (R167), with the instant of the last octet. RECEIVING stands only inside a command (log 22). -/
inductive LinkReceiver where
  | idle
  | receiving (since : Nat)
  | discarding (since : Nat)
deriving DecidableEq, Repr

/-- The reply state (R168): none outstanding, the reply of a TRIP-CANCEL waiting for the end of the attempt (R144), or
a frame being sent. -/
inductive ReplyState where
  | none
  | held (tripId : Fin 16)
  | sending (frame : List Byte)
deriving DecidableEq, Repr

/-- The reasons SENSE reads (R175). -/
inductive Reason where
  | none
  | notConfigured
  | alreadyConfigured
  | badStation
  | badField
  | wrongState
  | positionLost
  | exceedsCapacity
  | noTrip
  | tripActive
  | tooLate
  | shedHold
  | fallback
  | isolated
deriving DecidableEq, Repr

/-- The kinds of a line message. -/
inductive MessageKind where
  | release
  | claim
  | presence
deriving DecidableEq, Repr

/-- An observation filter (R177); the kind set is bit 0 RELEASE, bit 1 CLAIM, bit 2 PRESENCE (R173). -/
structure ObservationFilter where
  pattern : Byte := 0
  care : Byte := 0
  kinds : Byte := 0
deriving DecidableEq, Repr

/-- An observation entry (R97, R178). The start step is present for a CLAIM alone. -/
structure Observation where
  kind : MessageKind
  station : Nat
  cls : Nat
  draw : Int
  stamp : Nat
  own : Bool
  start : Option Nat
  tag : Byte
deriving DecidableEq, Repr

/-- The car link unit (R167 to R170, R177, R178). -/
structure CarLink where
  receiver : LinkReceiver := .idle
  reply : ReplyState := .none
  reason : Reason := .none
  detail : Nat := 0
  attention : Bool := true
  accept : ObservationFilter := {}
  reject : ObservationFilter := {}
  queue : List Observation := []
  overrun : Bool := false
deriving DecidableEq, Repr

/-- The whole block. `now` is the model's clock in microseconds (log 1), `freeCount` its source of free values (log 9)
and `pending` the commands that wait, first in, first out. -/
structure State where
  now : Nat := 0
  pending : List Instr := []
  freeCount : Nat := 0
  pins : Pins := {}
  station : Nat := 1
  config : Option Configuration := none
  seq : Sequencer := {}
  adm : AdmissionUnit := {}
  supply : SupplyMonitor := {}
  roster : Roster := {}
  line : LineUnit := {}
  con : ContentionUnit := {}
  link : CarLink := {}
deriving DecidableEq, Repr

/-- Reasons for a fault. The spec gives this block no event that stops it: every command has an effect, a refusing reply,
or none. -/
inductive Fault where
  /-- Raised by nobody; it stands so that the type is not empty. Safe. -/
  | neverRaised
deriving DecidableEq, Repr

/-- Reasons for a refusal. -/
inductive Refusal where
  /-- A command with no meaning yet, rejected by name in exec's arm; no arm does so. Safe: nothing can be proved of it. -/
  | notModelled (mnemonic : String)
deriving DecidableEq, Repr

/-- The machine right after a power-on cold reset: every field at its default, which is its value after a cold reset. The
pins read TRN normal, GOK negated, CAP 0 and straps 1, which the spec leaves to the outside (log 4). -/
def State.reset : State := {}

end Sys2Proof.Machine
end

