-- ==== Sys2Proof/Machine/Operands.lean ====
section
/-!
DEFINITION. The fields that commands and replies carry: octet order and sign, the code tables of R88, R171 and R175, the
CONFIGURE record of R173, and the fields of the requests.
-/

namespace Sys2Proof.Machine

/-! ### Octets and numbers: high octet first, draws in two's complement (00_scope Conventions, R171) -/

/-- One octet holding a number. -/
def octet (n : Nat) : Byte := BitVec.ofNat 8 n

/-- A two-octet field, high octet first. -/
def word16 (n : Nat) : List Byte := [octet (n / 256), octet n]

/-- A signed two-octet field in two's complement. -/
def signed16 (n : Int) : List Byte := word16 (n % 65536).toNat

/-- A signed four-octet field in two's complement (R174, the shed excess). -/
def signed32 (n : Int) : List Byte :=
  let w := (n % 4294967296).toNat
  word16 (w / 65536) ++ word16 w

/-- The number of a two-octet field. -/
def number16 (hi lo : Byte) : Nat := hi.toNat * 256 + lo.toNat

/-- The signed number of a two-octet field. -/
def int16 (hi lo : Byte) : Int :=
  if number16 hi lo < 32768 then (number16 hi lo : Int) else (number16 hi lo : Int) - 65536

/-- A flag as bit k of an octet. -/
def flagBit (b : Bool) (k : Nat) : Nat := if b then 2 ^ k else 0

/-- 1 for a set flag. -/
def flag (b : Bool) : Nat := if b then 1 else 0

/-! ### Code tables -/

/-- The per cent of a speed step. -/
def SpeedStep.percent : SpeedStep → Nat
  | .p25 => 25
  | .p50 => 50
  | .p75 => 75
  | .p100 => 100

/-- The speed code, on SPD1–SPD0 and in a CLAIM (00_scope Conventions, R88). -/
def SpeedStep.code : SpeedStep → Nat
  | .p25 => 0
  | .p50 => 1
  | .p75 => 2
  | .p100 => 3

/-- The step a two-bit speed code stands for. -/
def speedOfCode (n : Nat) : SpeedStep :=
  match n with
  | 0 => .p25
  | 1 => .p50
  | 2 => .p75
  | _ => .p100

/-- The step of an accepted LSPD value (R1). -/
def speedOfPercent (n : Nat) : SpeedStep :=
  match n with
  | 25 => .p25
  | 50 => .p50
  | 75 => .p75
  | _ => .p100

/-- The state codes (R171); 1 to 10 are the state summaries of R88. -/
def SeqState.code : SeqState → Nat
  | .joining => 1
  | .assess => 2
  | .evacWait => 3
  | .evacRun => 4
  | .landed => 5
  | .parked => 6
  | .serviceWait => 7
  | .serviceRun => 8
  | .serviceIdle => 9
  | .shedPending => 10
  | .dormant => 11
  | .awaitSupply => 12
  | .noSupply => 13
  | .fallback => 14
  | .isolated => 15
  | .unconfigured => 16

/-- The state of a state summary code, 1 to 10 (R88). -/
def summaryOfCode (n : Nat) : Option SeqState :=
  match n with
  | 1 => some .joining
  | 2 => some .assess
  | 3 => some .evacWait
  | 4 => some .evacRun
  | 5 => some .landed
  | 6 => some .parked
  | 7 => some .serviceWait
  | 8 => some .serviceRun
  | 9 => some .serviceIdle
  | 10 => some .shedPending
  | _ => none

/-- The RELEASE reason codes (R88). -/
def ReleaseReason.code : ReleaseReason → Nat
  | .tripEnd => 1
  | .cancelled => 2
  | .overtime => 3
  | .shed => 4
  | .park => 5
  | .supply => 6

def reasonOfCode (n : Nat) : Option ReleaseReason :=
  match n with
  | 1 => some .tripEnd
  | 2 => some .cancelled
  | 3 => some .overtime
  | 4 => some .shed
  | 5 => some .park
  | 6 => some .supply
  | _ => none

/-- The reason codes of SENSE (R175). -/
def Reason.code : Reason → Nat
  | .none => 0
  | .notConfigured => 1
  | .alreadyConfigured => 2
  | .badStation => 3
  | .badField => 4
  | .wrongState => 5
  | .positionLost => 6
  | .exceedsCapacity => 7
  | .noTrip => 8
  | .tripActive => 9
  | .tooLate => 10
  | .shedHold => 11
  | .fallback => 12
  | .isolated => 13

/-- The last line error codes (R174, octet 42). -/
def LineError.code : LineError → Nat
  | .none => 0
  | .longDominant => 1
  | .frame => 2
  | .length => 3
  | .crc => 4
  | .field => 5

/-- The frequency class codes (R174, octet 49). -/
def FreqClass.code : FreqClass → Nat
  | .absent => 0
  | .inWindow => 1
  | .offWindow => 2
  | .under => 3

/-- The admission outcome codes (R174, octet 22). -/
def Admission.code : Admission → Nat
  | .none => 0
  | .undecided => 1
  | .exceeds => 2
  | .waitHeadroom => 3
  | .waitSettle => 4
  | .admitted => 5

/-- The position codes (R125, R141). -/
def Position.code : Position → Nat
  | .atLanding => 1
  | .between => 2
  | .lost => 3

/-- A position field; none outside 1 to 3. -/
def positionOf (b : Byte) : Option Position :=
  match b.toNat with
  | 1 => some .atLanding
  | 2 => some .between
  | 3 => some .lost
  | _ => none

/-- A direction field: 1 UP, 2 DOWN; none for any other value (R3). -/
def directionOf (b : Byte) : Option Direction :=
  match b.toNat with
  | 1 => some .up
  | 2 => some .down
  | _ => none

/-- The trip record state codes (R174, octet 18). -/
def TripPhase.code : TripPhase → Nat
  | .pending => 1
  | .armed => 2
  | .running => 3
  | .ending => 4

/-- Whether a trip id field names this id; an id above 15 names no record (R171). -/
def namesTrip (field : Byte) (id : Fin 16) : Bool := field.toNat == id.val

/-! ### The CONFIGURE record (R173) -/

/-- The accepted values of a configuration field. -/
inductive Accepted where
  /-- from the first to the second, both included -/
  | range (lo hi : Nat)
  | oneOf (values : List Nat)
  /-- the bits below the number are free, those from it up are reserved and 0 -/
  | bits (n : Nat)
deriving DecidableEq, Repr

def Accepted.holds (a : Accepted) (v : Nat) : Bool :=
  match a with
  | .range lo hi => decide (lo ≤ v ∧ v ≤ hi)
  | .oneOf values => values.contains v
  | .bits n => decide (v < 2 ^ n)

/-- One row of the table of R173: octets, the default that zero selects (none: literal or out of range), accepted values. -/
structure FieldRule where
  octets : Nat
  zero : Option Nat
  accepted : Accepted
deriving DecidableEq, Repr

/-- The 32 fields of R173 in record order. -/
def fieldRules : List FieldRule :=
  [ ⟨1, some 45, .range 40 55⟩,       -- 1 BAL
    ⟨2, some 400, .range 10 2000⟩,    -- 2 FULL
    ⟨2, none, .range 0 500⟩,          -- 3 LOSS
    ⟨1, none, .range 0 90⟩,           -- 4 RGS
    ⟨2, some 180, .range 100 300⟩,    -- 5 START
    ⟨1, none, .range 0 200⟩,          -- 6 STBY
    ⟨1, some 50, .oneOf [25, 50, 75, 100]⟩,  -- 7 LSPD
    ⟨2, none, .range 100 9000⟩,       -- 8 SSTEP
    ⟨2, none, .range 0 10000⟩,        -- 9 RSV
    ⟨1, some 25, .range 10 60⟩,       -- 10 STEPA
    ⟨2, none, .range 0 5000⟩,         -- 11 ABSORB
    ⟨2, some 200, .range 1 3000⟩,     -- 12 PHANT
    ⟨1, none, .range 2 62⟩,           -- 13 CENSUS
    ⟨1, some 50, .oneOf [50, 60]⟩,    -- 14 FNOM
    ⟨1, some 6, .range 1 30⟩,         -- 15 settle time
    ⟨1, some 10, .range 2 60⟩ ] ++    -- 16 capacity hold time
  [ ⟨2, some 60, .range 10 600⟩,      -- 17 aging time
    ⟨1, some 20, .range 5 120⟩,       -- 18 evac patience
    ⟨1, some 10, .range 5 40⟩,        -- 19 report interval
    ⟨1, some 60, .range 10 180⟩,      -- 20 run limit
    ⟨1, some 20, .range 5 120⟩,       -- 21 landing dwell
    ⟨2, some 120, .range 20 900⟩,     -- 22 idle time
    ⟨2, some 120, .range 30 600⟩,     -- 23 fallback window W
    ⟨1, none, .bits 3⟩,               -- 24 unmask set
    ⟨1, none, .bits 4⟩,               -- 25 idle-restart mask
    ⟨1, none, .bits 4⟩,               -- 26 wake mask
    ⟨1, none, .bits 6⟩,               -- 27 acceptance station pattern
    ⟨1, none, .bits 6⟩,               -- 28 acceptance care mask
    ⟨1, none, .bits 3⟩,               -- 29 acceptance kind set
    ⟨1, none, .bits 6⟩,               -- 30 rejection station pattern
    ⟨1, none, .bits 6⟩,               -- 31 rejection care mask
    ⟨1, none, .bits 3⟩ ]              -- 32 rejection kind set

/-- The field values of a record, high octet first, zero replaced by the default it selects. -/
def fieldValues (rules : List FieldRule) (record : List Byte) : List Nat :=
  match rules with
  | [] => []
  | r :: rest =>
    let v := (record.take r.octets).foldl (fun n b => n * 256 + b.toNat) 0
    let v := if v = 0 then r.zero.getD 0 else v
    v :: fieldValues rest (record.drop r.octets)

/-- The index, from 1, of the first field whose value is not accepted. -/
def firstBadField (rules : List FieldRule) (values : List Nat) (index : Nat) : Option Nat :=
  match rules, values with
  | r :: rs, v :: vs => if r.accepted.holds v then firstBadField rs vs (index + 1) else some index
  | _, _ => none

/-- Whether a number has bit k set. -/
def bitOf (n k : Nat) : Bool := n / 2 ^ k % 2 == 1

/-- The configuration that judged field values hold, the declared maxima not yet computed. -/
def configurationOf (values : List Nat) : Configuration :=
  let f := fun i => values.getD (i - 1) 0
  { bal := f 1, full := f 2, loss := f 3, rgs := f 4, start := f 5, stby := f 6, lspd := speedOfPercent (f 7),
    sstep := f 8, rsv := f 9, stepa := f 10, absorb := f 11, phant := f 12, census := f 13, fnom := f 14,
    settleTime := f 15, holdTime := f 16, agingTime := f 17, patience := f 18, reportInterval := f 19,
    runLimit := f 20, dwell := f 21, idleTime := f 22, window := f 23,
    unmaskStale := bitOf (f 24) 0, unmaskPhantom := bitOf (f 24) 1, unmaskRange := bitOf (f 24) 2,
    idleRestartMask := octet (f 25), wakeMask := octet (f 26) }

/-- The acceptance filter of a record (fields 27 to 29). -/
def acceptFilterOf (values : List Nat) : ObservationFilter :=
  { pattern := octet (values.getD 26 0), care := octet (values.getD 27 0), kinds := octet (values.getD 28 0) }

/-- The rejection filter of a record (fields 30 to 32). -/
def rejectFilterOf (values : List Nat) : ObservationFilter :=
  { pattern := octet (values.getD 29 0), care := octet (values.getD 30 0), kinds := octet (values.getD 31 0) }

/-- Whether the call source 1 to 4 is in a mask (R137, R150, R173). -/
def sourceInMask (source : Nat) (mask : Byte) : Bool := bitOf mask.toNat (source - 1)

end Sys2Proof.Machine
end

