-- ==== Sys2Proof/Machine/Figures.lean ====
section
/-!
DEFINITION. The trip figures and the declared maxima (R5 to R13, R16). Products are formed in full before they are
divided; a draw is rounded up and a return down.
-/

namespace Sys2Proof.Machine

/-- Division rounded up (00_scope Conventions: ceil). -/
def ceilDiv (a b : Nat) : Nat := (a + b - 1) / b

/-- The signed demand (R5). -/
def signedDemand (bal load : Nat) (dir : Direction) : Int :=
  match dir with
  | .up => (load : Int) - (bal : Int)
  | .down => (bal : Int) - (load : Int)

/-- The returned power G of a negative demand of magnitude m at speed v (R8). -/
def returnedPower (c : Configuration) (m v : Nat) : Nat := c.full * m * v * c.rgs / 1000000

/-- The steady draw N (R6, R7, R8). -/
def steadyDraw (c : Configuration) (d : Int) (v : Nat) : Int :=
  if 0 < d then (c.loss + ceilDiv (c.full * d.toNat * v) 10000 : Nat)
  else if d = 0 then (c.loss : Int)
  else (c.loss : Int) - (returnedPower c (-d).toNat v : Int)

/-- The start step S (R9). -/
def startStep (c : Configuration) (d : Int) (v : Nat) : Nat :=
  if 0 < d then ceilDiv ((steadyDraw c d v).toNat * c.start) 100 else ceilDiv (c.loss * c.start) 100

/-- The figures of one step. -/
def stepFigures (c : Configuration) (d : Int) (v : SpeedStep) : StepFigures :=
  { draw := steadyDraw c d v.percent, start := startStep c d v.percent }

/-- The figures of a run trip at all four steps (R11). -/
def runFigures (c : Configuration) (d : Int) : Figures :=
  .run (stepFigures c d .p25) (stepFigures c d .p50) (stepFigures c d .p75) (stepFigures c d .p100)

/-- The single set of a wake trip (R12). -/
def wakeFigures (c : Configuration) : Figures := .wake { draw := (c.stby : Int), start := c.stby }

/-- The largest imbalance D* (R13). -/
def largestImbalance (c : Configuration) : Nat := max (125 - c.bal) c.bal

/-- The declared maximum draw (R13). -/
def declaredDmax (c : Configuration) : Nat := c.loss + ceilDiv (c.full * largestImbalance c) 100

/-- The declared maximum return (R13): held at 0 where the draw would not be negative. -/
def declaredGmax (c : Configuration) : Nat := c.full * largestImbalance c * c.rgs / 10000 - c.loss

/-- The kind of a trip with these figures. -/
def Figures.kind : Figures → TripKind
  | .run _ _ _ _ => .run
  | .wake _ => .wake

/-- The figures of a step; a wake trip has its single set at every step. -/
def Figures.atStep (f : Figures) (v : SpeedStep) : StepFigures :=
  match f with
  | .wake set => set
  | .run a b c d =>
    match v with
    | .p25 => a
    | .p50 => b
    | .p75 => c
    | .p100 => d

/-- The draw an evac demand publishes: N at 25, or STBY for a wake trip (R58). -/
def Figures.floorDraw (f : Figures) : Int := (f.atStep .p25).draw

/-- The directions of power flow (R10). -/
inductive Flow where
  | drawing
  | neutral
  | returning
deriving DecidableEq, Repr

def flowOf (draw : Int) : Flow :=
  if 0 < draw then .drawing else if draw = 0 then .neutral else .returning

end Sys2Proof.Machine
end

