-- ==== Sys2Proof/Machine/Flags.lean ====
section
/-!
DEFINITION. The flags: ATTENTION (R170), the condition flags and their raising (R43), the classes of sequencer states
(R69, R85, R118), and the supply indications (R68, R74).
-/

namespace Sys2Proof.Machine

/-- The stored configuration; before one is accepted, a blank one that no rule reads. -/
def conf (s : State) : Configuration := s.config.getD {}

/-- Set ATTENTION (R170). -/
def attend (s : State) : State := { s with link := { s.link with attention := true } }

/-! ### Condition flags (R43) -/

def Conditions.holds (c : Conditions) : Condition → Bool
  | .stale => c.stale
  | .phantom => c.phantom
  | .range => c.range
  | .saturate => c.saturate
  | .line => c.line
  | .duplicate => c.duplicate
  | .overtime => c.overtime

def Conditions.raised (c : Conditions) : Condition → Conditions
  | .stale => { c with stale := true }
  | .phantom => { c with phantom := true }
  | .range => { c with range := true }
  | .saturate => { c with saturate := true }
  | .line => { c with line := true }
  | .duplicate => { c with duplicate := true }
  | .overtime => { c with overtime := true }

/-- Raise a condition: a new one, raised from clear, sets ATTENTION (R43, R170). -/
def raise (k : Condition) (s : State) : State :=
  if s.adm.conditions.holds k then s
  else attend { s with adm := { s.adm with conditions := s.adm.conditions.raised k } }

/-- Raise a condition when its circumstance holds. -/
def raiseIf (p : Bool) (k : Condition) (s : State) : State := if p then raise k s else s

/-- The condition flags as octet 41 of R174. -/
def Conditions.octet (c : Conditions) : Nat :=
  flagBit c.stale 0 + flagBit c.phantom 1 + flagBit c.range 2 + flagBit c.saturate 3 + flagBit c.line 4 +
    flagBit c.duplicate 5 + flagBit c.overtime 6

/-! ### Classes of sequencer states -/

/-- The session states, AWAIT_SUPPLY to ISOLATED (R118). -/
def SeqState.session : SeqState → Bool
  | .unconfigured | .dormant => false
  | _ => true

/-- The driving states: the controller drives the restoration line (R85). -/
def SeqState.driving : SeqState → Bool
  | .joining | .assess | .evacWait | .evacRun | .landed | .parked | .serviceWait | .serviceRun | .serviceIdle
  | .shedPending => true
  | .unconfigured | .dormant | .awaitSupply | .noSupply | .fallback | .isolated => false

/-- The supplied states (R69). -/
def SeqState.supplied : SeqState → Bool
  | .fallback => true
  | st => st.driving

/-- A CONFIGURE has been accepted since the last cold reset (R118, R120). -/
def configured (s : State) : Bool := s.seq.state != .unconfigured

/-! ### Supply indications (R68, R74) -/

/-- Supply good: GOK asserted and the class IN_WINDOW. -/
def SupplyMonitor.good (m : SupplyMonitor) : Bool := m.gok == .asserted && m.freqClass == .inWindow

/-- Supply lost: GOK negated or the class ABSENT. -/
def SupplyMonitor.lost (m : SupplyMonitor) : Bool := m.gok == .negated || m.freqClass == .absent

/-- Settled for evacuation: the settle timer EXPIRED and the in-window time at least 0.5 s. -/
def SupplyMonitor.settledEvac (m : SupplyMonitor) : Bool := m.settle == .expired && m.inWindowHalf

/-- The capacity hold is HOLDING (R71). -/
def SupplyMonitor.holding (m : SupplyMonitor) : Bool := m.holdTimer != .stopped

/-- Settled for service: settled for evacuation and the capacity hold CLEAR. -/
def SupplyMonitor.settledService (m : SupplyMonitor) : Bool := m.settledEvac && !m.holding

/-- The supply is settled for a trip of this class (R51). -/
def SupplyMonitor.settledFor (m : SupplyMonitor) (cls : Nat) : Bool :=
  if cls ≤ 2 then m.settledEvac else m.settledService

/-- The effective capacity code Ceff (R38). -/
def SupplyMonitor.ceff (m : SupplyMonitor) : Nat := m.capCode.val - m.derate

/-- The capacity Cap that C and K give (R38, R70). -/
def capacityOf (s : State) : Nat := s.supply.ceff * (conf s).sstep - (conf s).rsv

end Sys2Proof.Machine
end

