-- ==== Sys2Proof/Machine/Messages.lean ====
section
/-!
DEFINITION. The messages of the restoration line: the check word (R84), the layouts (R88), the bits on the line (R79,
R80) and the judging of an activity (R92).
-/

namespace Sys2Proof.Machine

/-! ### The check word (R84) -/

/-- One bit into the register: the top bit is compared with it, the register shifted, and 1021 hex combined if they
differed. -/
def crcBit (reg : Half) (bit : Bool) : Half :=
  if reg.getLsbD 15 == bit then reg <<< 1 else (reg <<< 1) ^^^ 0x1021#16

/-- One octet into the register, most significant bit first. -/
def crcOctet (reg : Half) (b : Byte) : Half :=
  [7, 6, 5, 4, 3, 2, 1, 0].foldl (fun r i => crcBit r (b.getLsbD i)) reg

/-- The check word of the octets in message order. -/
def crcOf (octets : List Byte) : Half := octets.foldl crcOctet 0xFFFF#16

/-- The octets with their check word after them, high octet first. -/
def withCrc (octets : List Byte) : List Byte := octets ++ word16 (crcOf octets).toNat

/-! ### Sending (R80, R88) -/

/-- The kind codes of R88. -/
def MessageKind.code : MessageKind → Nat
  | .release => 1
  | .claim => 2
  | .presence => 3

def Body.kind : Body → MessageKind
  | .release _ => .release
  | .claim _ => .claim
  | .presence _ => .presence

/-- The class of a message: 0, the claim's 1 to 5, or 6 (R88). -/
def Body.cls : Body → Nat
  | .release _ => 0
  | .claim c => c.cls
  | .presence _ => 6

/-- The draw of a message (R97). -/
def Body.draw : Body → Int
  | .release r => r.draw
  | .claim c => c.draw
  | .presence p => p.committed

/-- The stamp of a message (R97). -/
def Body.stamp : Body → Nat
  | .release r => r.stamp
  | .claim c => c.stamp
  | .presence p => p.stamp

/-- Whether the trip kind bit is set: 0 RUN, 1 WAKE (R88). -/
def TripKind.bit : TripKind → Nat
  | .run => 0
  | .wake => 1

/-- The third octet of a message (R88), which is also the tag of its observation entry (R178). -/
def Body.tag : Body → Byte
  | .release r => octet (r.reason.code * 16 + r.tripId.val)
  | .claim c => octet (c.kind.bit * 128 + c.speed.code * 16 + c.tripId.val)
  | .presence p => octet p.summary.code

/-- The flags octet of a PRESENCE (R88). -/
def Presence.flags (p : Presence) : Nat :=
  flagBit p.serviceSelected 0 + flagBit p.lockout 1 + flagBit p.shedPending 2 + flagBit p.demand.isSome 3

/-- The octets of a message before its CRC (R88). -/
def messageOctets (m : Message) : List Byte :=
  octet (m.body.kind.code * 16 + m.body.cls * 2) :: octet m.station :: m.body.tag ::
  match m.body with
  | .release r => signed16 r.draw ++ word16 r.stamp
  | .claim c => signed16 c.draw ++ word16 c.start ++ word16 c.stamp ++ word16 c.dmax
  | .presence p =>
    octet p.flags :: signed16 p.committed ++ word16 p.dmax ++ word16 p.gmax ++ word16 p.stamp ++
      signed16 (p.demand.getD 0)

/-- The whole message as it goes on the line (R85, R88). -/
def encodeMessage (m : Message) : List Byte := withCrc (messageOctets m)

/-- The level of a sent bit: 0 dominant, 1 recessive (R79). -/
def levelOfBit (b : Bool) : Level := if b then .recessive else .dominant

/-- The ten bits of an octet on the line: start bit, data least significant first, stop bit (R80). -/
def octetLevels (b : Byte) : List Level :=
  Level.dominant :: ((List.range 8).map fun i => levelOfBit (b.getLsbD i)) ++ [Level.recessive]

/-- The bits of a message, its octets back to back (R80). -/
def lineLevels (octets : List Byte) : List Level := octets.flatMap octetLevels

/-- The level of the k-th bit of a message, the first of them bit 0; recessive after the last (R80, R85). -/
def sentLevel (octets : List Byte) (k : Nat) : Level :=
  match octets[k / 10]? with
  | some b => (octetLevels b).getD (k % 10) .recessive
  | none => .recessive

/-- What a station that sends these octets puts on the line from its first edge on, bit by bit (R80). -/
def bitChanges (octets : List Byte) : List LineChange :=
  (lineLevels octets).zipIdx.map fun b => { after := b.2 * Config.bitTime, level := b.1 }

/-! ### Judging (R92) -/

/-- The octets a message of a kind code has; none for a code that is no kind (R88). -/
def kindLength (code : Nat) : Option Nat :=
  match code with
  | 1 => some 9
  | 2 => some 13
  | 3 => some 16
  | _ => none

/-- The field checks and the reading of a RELEASE (R88, R92); the CRC has been checked. -/
def readRelease (octets : List Byte) : Option Body :=
  match octets with
  | [_, _, tag, dh, dl, sh, sl, _, _] =>
    match reasonOfCode (tag.toNat / 16) with
    | none => none
    | some reason =>
      if int16 dh dl = -32768 then none
      else some (.release
        { reason := reason, tripId := Fin.ofNat 16 tag.toNat, draw := int16 dh dl, stamp := number16 sh sl })
  | _ => none

/-- The field checks and the reading of a CLAIM of header class `cls` (R88, R92). -/
def readClaim (cls : Nat) (octets : List Byte) : Option Body :=
  match octets with
  | [_, _, tag, nh, nl, sh, sl, th, tl, dh, dl, _, _] =>
    if bitOf tag.toNat 6 || decide (int16 nh nl = -32768) || decide (32767 < number16 sh sl) ||
        decide (number16 th tl = 0) || decide (32767 < number16 dh dl) then none
    else some (.claim
      { cls := cls, kind := if bitOf tag.toNat 7 then .wake else .run, speed := speedOfCode (tag.toNat / 16 % 4),
        tripId := Fin.ofNat 16 tag.toNat, draw := int16 nh nl, start := number16 sh sl, stamp := number16 th tl,
        dmax := number16 dh dl })
  | _ => none

/-- The field checks and the reading of a PRESENCE (R88, R92). -/
def readPresence (octets : List Byte) : Option Body :=
  match octets with
  | [_, _, tag, flags, ch, cl, dh, dl, gh, gl, th, tl, eh, el, _, _] =>
    match summaryOfCode tag.toNat with
    | none => none
    | some summary =>
      if decide (16 ≤ flags.toNat) || decide (int16 ch cl = -32768) || decide (32767 < number16 dh dl) ||
          decide (32767 < number16 gh gl) || (bitOf flags.toNat 3 && decide (int16 eh el = -32768)) then none
      else some (.presence
        { summary := summary, serviceSelected := bitOf flags.toNat 0, lockout := bitOf flags.toNat 1,
          shedPending := bitOf flags.toNat 2,
          demand := if bitOf flags.toNat 3 then some (int16 eh el) else none,
          committed := int16 ch cl, dmax := number16 dh dl, gmax := number16 gh gl, stamp := number16 th tl })
  | _ => none

/-- The field checks of R92 over octets of the right length whose CRC agrees: the message, or none. -/
def readMessage (octets : List Byte) : Option Message :=
  match octets with
  | header :: station :: _ =>
    let h := header.toNat
    let cls := h / 2 % 8
    if h % 2 ≠ 0 then none
    else if station.toNat = 0 ∨ 62 < station.toNat then none
    else
      let body :=
        match h / 16 with
        | 1 => if cls = 0 then readRelease octets else none
        | 2 => if 1 ≤ cls ∧ cls ≤ 5 then readClaim cls octets else none
        | 3 => if cls = 6 then readPresence octets else none
        | _ => none
      body.map fun b => { station := station.toNat, body := b }
  | _ => none

/-- Whether the octets' last two carry the CRC of those before them (R84). -/
def crcAgrees (octets : List Byte) : Bool :=
  octets.drop (octets.length - 2) == word16 (crcOf (octets.take (octets.length - 2))).toNat

/-- An activity judged (R92): the error kind of the first check that fails, or the message. -/
def judgeActivity (u : LineUnit) : Except LineError Message :=
  if u.longMark then .error .longDominant
  else if u.frameMark then .error .frame
  else if (u.octets.head?.bind fun b => kindLength (b.toNat / 16)) ≠ some u.octetCount then .error .length
  else if !crcAgrees u.octets then .error .crc
  else
    match readMessage u.octets with
    | none => .error .field
    | some m => .ok m

end Sys2Proof.Machine
end

