-- ==== Sys2Proof/Machine/Receiver.lean ====
section
/-!
DEFINITION. The line as the line unit drives and reads it: the wired-AND of all drives (R79), the bits sampled in the middle of
their bit times and assembled to octets (R81), the end-of-activity reference (R82), the long-dominant timer (R83), and the own
drive bit by bit (R80, R85, R86).
-/

namespace Sys2Proof.Machine

/-! ### The level of the line (R79) -/

/-- The line reads dominant when any station drives it, and recessive when none does (R79). -/
def wiredAnd (a b : Level) : Level :=
  match a, b with
  | .recessive, .recessive => .recessive
  | _, _ => .dominant

/-- The middle of the k-th bit time after an edge; the start bit is bit 0 (R79, R81). -/
def midBit (edge k : Nat) : Nat := edge + k * Config.bitTime + Config.bitTime / 2

/-- The instant at which the last stop bit of a message has been sent: ten bit times an octet (R80). -/
def Sending.endsAt (x : Sending) : Nat := x.startedAt + 10 * x.octets.length * Config.bitTime

/-- What a message on its way drives at an instant (R85). -/
def Sending.levelAt (x : Sending) (t : Nat) : Level :=
  if t < x.startedAt then .recessive else sentLevel x.octets ((t - x.startedAt) / Config.bitTime)

/-- What the transmitter drives at an instant: recessive unless a message is on its way (R79, R85). -/
def LineUnit.driven (u : LineUnit) (t : Nat) : Level :=
  match u.transmitter with
  | some x => x.levelAt t
  | none => .recessive

/-- The level of the line at an instant (R79); a line that does not follow the driver shows the others alone (R86, log 6). -/
def LineUnit.lineAt (u : LineUnit) (t : Nat) : Level :=
  wiredAnd (if u.follows then u.driven t else .recessive) u.others

/-! ### The bits of an octet (R81) -/

/-- The octet of eight data bits, the first of them the least significant (R80). -/
def octetOfBits (bits : List Bool) : Byte := octet (bits.foldr (fun b n => 2 * n + b.toNat) 0)

/-- The stop bit has been sampled: at most 16 octets are kept, every one is counted, a dominant stop bit marks FRAME. An edge
before the end of the bit time that follows the stop bit is in time for the next octet (R81). -/
def LineUnit.closeOctet (u : LineUnit) (o : OctetInHand) : LineUnit :=
  { u with
    inHand := none, inTimeUntil := o.start + 11 * Config.bitTime
    octets := if u.octets.length < 16 then u.octets ++ [octetOfBits o.bits] else u.octets
    octetCount := u.octetCount + 1
    frameMark := u.frameMark || u.level == .dominant }

/-- Sample the next data bit, or the stop bit, of the octet in hand if its middle lies before an instant (R81). -/
def LineUnit.sampleBit (t : Nat) (u : LineUnit) : LineUnit :=
  match u.inHand with
  | none => u
  | some o =>
    if midBit o.start (o.bits.length + 1) < t then
      if o.bits.length < 8 then
        { u with inHand := some { o with bits := o.bits ++ [u.level == .recessive] } }
      else u.closeOctet o
    else u

/-- Sample every bit whose middle lies before an instant; the line has held its level up to there. -/
def LineUnit.sampleTo (t : Nat) (u : LineUnit) : LineUnit :=
  (List.range 9).foldl (fun u _ => u.sampleBit t) u

/-! ### The changes of the line (R81, R82, R83) -/

/-- The line goes dominant: the long-dominant timer starts (R83). In an activity with no octet in hand the edge begins the next
octet, late unless it is in time; on a quiet line it begins an activity (R81); before the first base gap it begins none (R98). -/
def LineUnit.dominantEdge (t : Nat) (u : LineUnit) : LineUnit :=
  let u := { u with level := .dominant, changedAt := t, longTimer := .running t }
  if u.active then
    match u.inHand with
    | some _ => u
    | none => { u with inHand := some { start := t }, frameMark := u.frameMark || decide (u.inTimeUntil ≤ t) }
  else if u.awaitingGap then u
  else { u with
    active := true, startedAt := t, inHand := some { start := t }, inTimeUntil := 0, octets := [], octetCount := 0
    frameMark := false, longMark := false }

/-- The long-dominant timer has passed its time before an instant (R83). -/
def LineUnit.overdue (u : LineUnit) (t : Nat) : Bool :=
  match u.longTimer with
  | .running since => decide (since + Config.longDominant < t)
  | .stopped => false

/-- The line goes recessive: in an activity the reference is set anew (R82); the long-dominant timer stops, and one that had
passed its time has marked the activity (R83). -/
def LineUnit.recessiveEdge (t : Nat) (u : LineUnit) : LineUnit :=
  { u with
    level := .recessive, changedAt := t, longTimer := .stopped
    longMark := u.longMark || (u.active && u.overdue t)
    endReference := if u.active then some t else u.endReference }

/-- The line takes a level at an instant; the level it had is what the bits before it are sampled at. -/
def LineUnit.setLevel (t : Nat) (l : Level) (u : LineUnit) : LineUnit :=
  if l = u.level then u
  else match l with
    | .dominant => (u.sampleTo t).dominantEdge t
    | .recessive => (u.sampleTo t).recessiveEdge t

/-- Read the line at an instant: its level is the wired-AND there (R79). -/
def LineUnit.settle (t : Nat) (u : LineUnit) : LineUnit :=
  { u.setLevel t (u.lineAt t) with readTo := max u.readTo t }

/-! ### The own drive and the others' -/

/-- The instants at which the own drive may change: the beginning of each bit, and the end of the last (R80, R85). -/
def LineUnit.bitEdges (u : LineUnit) : List Nat :=
  match u.transmitter with
  | some x => (List.range (10 * x.octets.length + 1)).map fun k => x.startedAt + k * Config.bitTime
  | none => []

/-- Read the line up to an instant, the others' drive as last told: every bit of the own drive is read (R86). -/
def LineUnit.driveTo (t : Nat) (u : LineUnit) : LineUnit :=
  let u' := (u.bitEdges.filter fun e => decide (u.readTo < e ∧ e ≤ t)).foldl (fun u e => u.settle e) u
  { u' with readTo := max u'.readTo t }

/-- The instant of a change that comes (log 5). -/
def LineUnit.instant (u : LineUnit) (c : LineChange) : Nat := u.startedAt + c.after

/-- The others change what they leave on the line (R79); a change told late is taken where the line has been read to. -/
def LineUnit.othersChange (u : LineUnit) (c : LineChange) : LineUnit :=
  let t := max (u.instant c) u.readTo
  ({ u.driveTo (t - 1) with others := c.level }).settle t

/-- Follow the line through changes of the others' drive, up to the first before which `stop` holds; that one and those after
it still come. -/
def LineUnit.follow (stop : LineUnit → LineChange → Bool) (changes : List LineChange) (u : LineUnit) : LineUnit :=
  match changes with
  | [] => { u with coming := [] }
  | c :: rest => if stop u c then { u with coming := c :: rest } else (u.othersChange c).follow stop rest

/-- Begin to drive a message (R85): the line goes dominant with its first start bit, if it follows the driver. -/
def LineUnit.begin (x : Sending) (u : LineUnit) : LineUnit :=
  { u with transmitter := some x }.settle x.startedAt

/-! ### Readback (R86, R87) -/

/-- What the others leave on the line at an instant, as told. -/
def LineUnit.othersAt (u : LineUnit) (t : Nat) : Level :=
  u.coming.foldl (fun l c => if u.instant c ≤ t then c.level else l) u.others

/-- The bit reads back as another level in the middle of its bit time (R86). -/
def LineUnit.differs (u : LineUnit) (x : Sending) (k : Nat) : Bool :=
  let sent := sentLevel x.octets k
  wiredAnd (if u.follows then sent else .recessive) (u.othersAt (midBit x.startedAt k)) != sent

/-- The first bit not yet read back that reads back as another level (R86). -/
def LineUnit.firstMismatch (u : LineUnit) (x : Sending) : Option Nat :=
  (List.range (10 * x.octets.length)).find? fun k =>
    decide (u.readTo ≤ midBit x.startedAt k) && u.differs x k

/-- The others hold the line dominant after the last stop bit of the own message was read back (R87). -/
def LineUnit.joins (u : LineUnit) (x : Sending) : Bool :=
  u.others == .dominant && decide (x.endsAt ≤ u.readTo + Config.bitTime / 2)

/-! ### The end of an activity (R82) -/

/-- The line has stayed recessive for longer than the base gap at an instant (R82, R98). -/
def LineUnit.gapPassed (t : Nat) (u : LineUnit) : Bool :=
  u.level == .recessive && decide (u.changedAt + Config.baseGap < t)

/-- The base gap lies before the change: it belongs to no activity in progress. A change told for the very instant at which the
base gap is reached is the edge taken first (R82, log 31). -/
def LineUnit.gapBefore (u : LineUnit) (c : LineChange) : Bool :=
  (u.driveTo (u.instant c - 1)).gapPassed (u.instant c)

/-- Read the line on to an instant: the changes told for it and before it are followed, up to a base gap. -/
def LineUnit.readOn (t : Nat) (u : LineUnit) : LineUnit :=
  (u.follow (fun u c => u.gapBefore c || decide (t < u.instant c)) u.coming).driveTo (t - 1)

/-- The line read up to a release: within an activity, and before the first base gap, through what is told for it; what is told on
a quiet line counts from an edge that is still to come (log 5). -/
def LineUnit.readToRelease (t : Nat) (u : LineUnit) : LineUnit :=
  if u.active || u.awaitingGap then u.readOn t else u.driveTo (t - 1)

/-- Release the line (R79, R85, R86): it has been read without a break, it now shows what the others leave on it, and the
transmitter is IDLE. -/
def LineUnit.release (t : Nat) (u : LineUnit) : LineUnit :=
  match u.transmitter with
  | none => u
  | some _ => { u.readToRelease t with transmitter := none, follows := true }.settle t

/-- Follow the line through all that is told, and the own drive to its end, up to the base gap. -/
def LineUnit.followToEnd (changes : List LineChange) (u : LineUnit) : LineUnit :=
  (u.follow LineUnit.gapBefore (u.coming ++ changes)).driveTo ((u.transmitter.map Sending.endsAt).getD 0)

/-- The end of the activity, followed through the changes: the instant of its reference, and the line unit 12 bit times later
with its last octet complete. While the line stays dominant there is no end (R82, R83). -/
def LineUnit.recognised (changes : List LineChange) (u : LineUnit) : Option (Nat × LineUnit) :=
  let u := u.followToEnd changes
  match u.level, u.endReference with
  | .recessive, some reference => some (reference, u.sampleTo (reference + Config.baseGap))
  | _, _ => none

/-- The line unit QUIET after an activity; the reference stands (R82), and the changes that come are the next activity's. -/
def LineUnit.quiet (u : LineUnit) : LineUnit :=
  { u with
    coming := [], active := false, inHand := none, inTimeUntil := 0, octets := [], octetCount := 0
    frameMark := false, longMark := false }

/-- The line unit at a reset, with the line released (R98): the line shows what the others leave on it by now, as told (R79), and is
read anew from here on. Of what is told within an activity or before the first base gap, the changes to come still come, counted
from here. -/
def LineUnit.reset (now : Nat) (u : LineUnit) : LineUnit :=
  let told := if u.active || u.awaitingGap then u.coming else []
  let level := { u with coming := told }.othersAt now
  { others := level, level := level, readTo := now, changedAt := now, startedAt := now
    coming := (told.filter fun c => decide (now < u.instant c)).map fun c => { c with after := u.instant c - now } }

end Sys2Proof.Machine
end

