-- ==== Sys2Proof/Machine/Ops.lean ====
section
/-!
DEFINITION. The shared operations: time, timers, the own trip record, the outbound slots and the attempt, the entries to
the sequencer's states, and the answers of the car link.
-/

namespace Sys2Proof.Machine

/-! ### Time (log 1) -/

/-- Let the time pass to an instant; time does not run back. -/
def passTo (t : Nat) (s : State) : State := { s with now := max s.now t }

/-- The time of a timer. -/
def Timer.elapsed (t : Timer) (now : Nat) : Nat :=
  match t with
  | .stopped => 0
  | .running since => now - since

def Timer.isRunning (t : Timer) : Bool := t != .stopped

/-- Let the time pass to the instant at which a running timer reaches its set time. -/
def passToExpiry (t : Timer) (limit : Nat) (s : State) : State :=
  match t with
  | .stopped => s
  | .running since => passTo (since + limit) s

/-- What a step on an empty queue does: one bit time passes (log 2). -/
def idleTick (s : State) : State := { s with now := s.now + Config.bitTime }

/-! ### RESET (R132) -/

/-- RESET is held: the reset that it began has not ended. -/
def inReset (s : State) : Bool := s.pins.reset == .asserted

/-! ### The outbound slots and the attempt (R105, R106, R110, R115) -/

/-- An attempt in hand serves this slot. -/
def Attempt.serves (a : Attempt) (k : MessageKind) : Bool :=
  match a with
  | .none => false
  | .waiting b => b.kind == k
  | .sending b => b.kind == k

/-- A SENDING attempt of this slot. -/
def Attempt.isSending (a : Attempt) (k : MessageKind) : Bool :=
  match a with
  | .sending b => b.kind == k
  | _ => false

/-- A WAITING attempt of this slot. -/
def Attempt.isWaiting (a : Attempt) (k : MessageKind) : Bool :=
  match a with
  | .waiting b => b.kind == k
  | _ => false

/-- The attempt is over: NONE, key 0, slot timer stopped (R110, R113, R114). -/
def ContentionUnit.noAttempt (c : ContentionUnit) : ContentionUnit :=
  { c with attempt := .none, key := 0, slotDeadline := none }

/-- Mark the PRESENCE slot due (R105, R106); outside the driving states the slots stay empty (R116). -/
def markPresence (s : State) : State :=
  if s.seq.state.driving then
    { s with con := { s.con with
      presenceDue := true
      remarked := s.con.remarked || s.con.attempt.serves .presence } }
  else s

/-- Write the own trip record; each such change sets ATTENTION (R134, R170). -/
def changeTrip (t : Option Trip) (s : State) : State := attend { s with seq := { s.seq with trip := t } }

/-- The sequencer's part of "claim abandoned" and "claim failed": ARMED becomes PENDING, admitted step none (R135). -/
def claimLost (s : State) : State :=
  match s.seq.trip with
  | some t => if t.phase = .armed then changeTrip (some { t with phase := .pending, step := none }) s else s
  | none => s

/-- Abandon a WAITING attempt; the message stays in its slot, an abandoned CLAIM is reported (R110). -/
def abandonAttempt (s : State) : State :=
  match s.con.attempt with
  | .waiting b =>
    let s := { s with con := s.con.noAttempt }
    if b.kind = .claim then claimLost s else s
  | _ => s

/-- Post a RELEASE (R105). It abandons a WAITING CLAIM attempt (R112) and supersedes a RELEASE that is SENDING. -/
def postRelease (r : Release) (s : State) : State :=
  let s := { s with con := { s.con with
    releaseSlot := some r
    superseded := s.con.superseded || s.con.attempt.isSending .release } }
  if s.con.attempt.isWaiting .claim then abandonAttempt s else s

/-- Withdraw the CLAIM (R115): a SENDING one takes the withdrawn mark; otherwise a WAITING attempt is abandoned and the slot
emptied. -/
def withdrawClaim (s : State) : State :=
  if s.con.attempt.isSending .claim then { s with con := { s.con with withdrawn := true } }
  else
    let s := if s.con.attempt.isWaiting .claim then abandonAttempt s else s
    { s with con := { s.con with claimSlot := none } }

/-- Clear the outbound state (R116), cutting a message being sent (R85). No report is made. -/
def clearOutbound (s : State) : State :=
  { s with
    con := { s.con.noAttempt with
      failures := 0, presenceTimer := .stopped, releaseSlot := none, superseded := false, claimSlot := none,
      withdrawn := false, presenceDue := false, remarked := false }
    line := s.line.release s.now }

/-! ### The own trip record (R134) -/

/-- The class of an evacuation trip (R126). -/
def evacClass (s : State) : Nat := if s.seq.occupancy then 1 else 2

/-- The class a service trip takes at its creation (R134). -/
def serviceClass (s : State) : Nat := if s.seq.serviceSelected then 4 else 5

/-- Create a trip record in PENDING with the next trip id (R134); the admission view takes its id (R47). -/
def createTrip (purpose : Purpose) (cls : Nat) (origin : Origin) (figures : Figures) (s : State) : State :=
  let id := s.seq.tripCounter
  let t : Trip := { id := id, purpose := purpose, cls := cls, origin := origin, figures := figures }
  changeTrip (some t) { s with
    seq := { s.seq with tripCounter := id + 1, lastTripId := id }
    adm := { s.adm with view := { tripId := id } } }

/-- Post the claim of the trip record into the CLAIM slot (R105). -/
def postClaim (s : State) : State :=
  match s.seq.trip with
  | some t => { s with con := { s.con with claimSlot := some { kind := t.figures.kind, tripId := t.id } } }
  | none => s

/-- The trip record becomes NONE: figures discarded, aging and patience timers stopped, own evac demand withdrawn (R54,
R57, R59, R134). -/
def endTrip (s : State) : State :=
  let s := if s.seq.trip.isSome then changeTrip none s else s
  { s with
    seq := { s.seq with agingTimer := .stopped }
    adm := { s.adm with patience := .stopped, ownDemand := none } }

/-- The trip record is discarded with its timers (R129, R130, R158, R163). -/
def discardTrip (s : State) : State :=
  let s := endTrip s
  { s with seq := { s.seq with runTimer := .stopped } }

/-- The id of the trip record in hand; 0 when there is none. -/
def tripIdInHand (s : State) : Fin 16 := (s.seq.trip.map Trip.id).getD 0

/-- The trip record is in this phase. -/
def tripIn (p : TripPhase) (s : State) : Bool := (s.seq.trip.map Trip.phase) == some p

/-- The stamp a RELEASE to this draw carries: the own stamp, or 0 with a draw of 0 (R89, R141). -/
def releaseStamp (draw stamp : Nat) : Nat := if draw = 0 then 0 else stamp

/-! ### The drive lines and the own standing -/

/-- RUNP negated and SPD at code 0 (R136). -/
def stopRun (s : State) : State := { s with seq := { s.seq with runp := false, spd := .p25 } }

/-- RUNP and SHDN negated, SPD at code 0, EMOP asserted: a car held in a session (R129, R130, R158). -/
def holdCar (s : State) : State :=
  { s with seq := { s.seq with runp := false, spd := .p25, shdn := false, emop := true } }

/-- The own standing takes 0, 0 and 0 (R119). -/
def zeroStanding (s : State) : State :=
  { s with seq := { s.seq with commitment := 0, claimClass := 0, stamp := 0 } }

/-! ### State changes (R118) -/

/-- Enter a state. SHDN is asserted in SHED_PENDING and negated in every other; a change sets ATTENTION, and a change to the
same state is none (R118). -/
def goTo (st : SeqState) (s : State) : State :=
  if s.seq.state = st then s
  else attend { s with seq := { s.seq with state := st, shdn := st == .shedPending } }

/-- Enter SERVICE_IDLE: the idle timer starts and PRESENCE is marked due (R147). -/
def enterServiceIdle (s : State) : State :=
  let s := goTo .serviceIdle s
  markPresence { s with seq := { s.seq with idleTimer := .running s.now } }

/-- Enter PARKED: PRESENCE is marked due (R146). -/
def enterParked (s : State) : State := markPresence (goTo .parked s)

/-- Enter LANDED: the dwell starts and PRESENCE is marked due (R145). -/
def enterLanded (s : State) : State :=
  let s := goTo .landed s
  markPresence { s with seq := { s.seq with dwellTimer := .running s.now } }

/-- Enter or stay in EVAC_WAIT at the end of a run or of a trip: PRESENCE is marked due (R135, R141, R144). -/
def enterEvacWait (s : State) : State := markPresence (goTo .evacWait s)

/-- Enter SERVICE_WAIT, which marks PRESENCE due (R139, log 14). -/
def enterServiceWait (s : State) : State := markPresence (goTo .serviceWait s)

/-- Return to the state the trip came from (R135, R144). -/
def returnToOrigin (o : Origin) (s : State) : State :=
  match o with
  | .assess | .evacWait | .fallback => enterEvacWait s
  | .serviceIdle => enterServiceIdle s
  | .parked => enterParked s

/-- Post a SHED RELEASE to 0 for a trip id: the shed hold starts and PRESENCE is marked due (R154, R157). -/
def postShed (id : Fin 16) (s : State) : State :=
  let s := postRelease { reason := .shed, tripId := id, draw := 0, stamp := 0 } s
  markPresence { s with seq := { s.seq with shedHold := .timing s.now } }

/-- Set or clear the lockout flag; a change marks PRESENCE due in the driving states (R128, log 13). -/
def setLockout (b : Bool) (s : State) : State :=
  if s.seq.lockout = b then s else markPresence { s with seq := { s.seq with lockout := b } }

/-- What a reported position does to the lockout flag (R128, R141). -/
def lockoutBy (p : Position) (s : State) : State :=
  match p with
  | .atLanding => setLockout false s
  | .between => s
  | .lost => setLockout true s

/-- The class of an evacuation trip follows the occupancy flag; a change of class is a trip record change (R126). -/
def followOccupancy (s : State) : State :=
  match s.seq.trip with
  | some t =>
    if t.purpose = .evacuation ∧ t.cls ≠ evacClass s then changeTrip (some { t with cls := evacClass s }) s else s
  | none => s

/-- Create a wake trip for evacuation and post its claim (R127). -/
def createEvacWake (origin : Origin) (s : State) : State :=
  postClaim (createTrip .evacuation (evacClass s) origin (wakeFigures (conf s)) s)

/-- Act on the position in ASSESS, or in EVAC_WAIT with no trip (R127): at a landing a wake trip is created; the state becomes,
or stays, EVAC_WAIT. -/
def actOnPosition (s : State) : State :=
  let origin := if s.seq.state = .assess then Origin.assess else Origin.evacWait
  let s := if s.seq.report.position = .atLanding ∧ s.seq.trip = none then createEvacWake origin s else s
  goTo .evacWait s

/-- Enter ASSESS: PRESENCE is marked due; a fresh report is acted on at once (R127). -/
def enterAssess (s : State) : State :=
  let s := markPresence (goTo .assess s)
  if s.seq.report.fresh then actOnPosition s else s

/-! ### Answers of the car link (R166, R168, R169) -/

/-- What a request is answered with. -/
inductive Answer where
  | accepted (data : List Byte)
  | busy
  | check (reason : Reason) (detail : Nat)
  /-- the reply waits for the end of the attempt (R144) -/
  | held (tripId : Fin 16)
deriving DecidableEq, Repr

/-- The status octet: bit 7 BUSY, bit 6 CHECK, bit 5 ATTENTION (R169). -/
def statusOctet (busy check attention : Bool) : Byte :=
  octet (flagBit busy 7 + flagBit check 6 + flagBit attention 5)

/-- Form and send the reply, after the request has acted; a CHECK holds its reason and detail for SENSE (R168, R169). -/
def respond (a : Answer) (s : State) : State :=
  let att := s.link.attention
  match a with
  | .accepted data =>
    { s with link := { s.link with reply := .sending (linkFrame (statusOctet false false att) data) } }
  | .busy => { s with link := { s.link with reply := .sending (linkFrame (statusOctet true false att) []) } }
  | .check reason detail =>
    { s with link := { s.link with
      reason := reason, detail := detail, reply := .sending (linkFrame (statusOctet false true att) []) } }
  | .held id => { s with link := { s.link with reply := .held id } }

/-- The data of a reply that carries the state code (R171). -/
def stateData (s : State) : List Byte := [octet s.seq.state.code]

/-- The receiver discards from now on; the quiet that ends it counts from here (R167). While RESET is held it stays IDLE. -/
def loseRequest (s : State) : State :=
  { s with link := { s.link with receiver := if inReset s then .idle else .discarding s.now } }

/-- A request can be taken: RESET is released, no reply is outstanding and the receiver is not DISCARDING (R132, R167, R168). -/
def linkReady (s : State) : Bool :=
  !inReset s && s.link.reply == .none && match s.link.receiver with
    | .discarding _ => false
    | _ => true

/-- The octets of a request arrive: they make the receiver RECEIVING, or leave it DISCARDING when a reply is outstanding or it
discards already (R167, R168). -/
def octetsArrive (s : State) : State :=
  if linkReady s then { s with link := { s.link with receiver := .receiving s.now } } else loseRequest s

/-- The link has been quiet for 10 ms after its last octet: a request not finished is discarded, and the receiver is IDLE (R167). -/
def linkQuiet (s : State) : State :=
  match s.link.receiver with
  | .idle => s
  | .receiving since | .discarding since =>
    let s := passTo (since + Config.linkGap) s
    { s with link := { s.link with receiver := .idle } }

/-- Take a request (R167, R168, R169, R171): one not received is lost; in UNCONFIGURED a request not taken there is refused with
NOT_CONFIGURED and its code; otherwise it acts and is answered. The receiver is IDLE at the end of the frame. -/
def takeRequest (code : Nat) (beforeConfigure : Bool) (act : State → State × Answer) (s : State) : State :=
  let s := octetsArrive s
  match s.link.receiver with
  | .receiving _ =>
    let s := { s with link := { s.link with receiver := .idle, reason := .none, detail := 0 } }
    if !configured s && !beforeConfigure then respond (.check .notConfigured code) s
    else
      let r := act s
      respond r.2 r.1
  | _ => s

/-- Answer the TRIP-CANCEL whose reply waits, if there is one (R144, R164). -/
def answerHeld (a : Answer) (s : State) : State :=
  match s.link.reply with
  | .held _ => respond a s
  | _ => s

end Sys2Proof.Machine
end

