-- ==== Sys2Proof/Machine/RosterOps.lean ====
section
/-!
DEFINITION. The station roster: its places, stamps on their ring (R30 to R33), the effect of each message (R23 to R27), the
counts (R29), and the restoration order (R34).
-/

namespace Sys2Proof.Machine

/-! ### Places (R18) -/

/-- The record in a station's place. -/
def findRecord (records : List StationRecord) (station : Nat) : Option StationRecord :=
  records.find? fun r => r.station == station

/-- Put a record into its station's place, keeping the list in rising station order. -/
def putRecord (records : List StationRecord) (r : StationRecord) : List StationRecord :=
  match records with
  | [] => [r]
  | x :: rest =>
    if r.station < x.station then r :: x :: rest
    else if r.station = x.station then r :: rest
    else x :: putRecord rest r

/-- The records stand in strictly rising station order. -/
def risingStations : List StationRecord → Bool
  | [] => true
  | [_] => true
  | a :: b :: rest => decide (a.station < b.station) && risingStations (b :: rest)

/-- Number of records held (R29). -/
def Roster.count (r : Roster) : Nat := r.records.length

def Roster.staleCount (r : Roster) : Nat := (r.records.filter fun x => !x.fresh).length

def Roster.freshCount (r : Roster) : Nat := (r.records.filter fun x => x.fresh).length

/-- The unheard count U (R29). -/
def unheardCount (s : State) : Nat := (conf s).census - 1 - s.roster.count

/-- The largest evac demand the roster yields; none when no record holds one (R27). -/
def Roster.largestDemand (r : Roster) : Option Int :=
  r.records.foldl (fun acc x =>
    match x.demand, acc with
    | none, a => a
    | some d, none => some d
    | some d, some a => some (max a d)) none

/-! ### Stamps (R30 to R33) -/

/-- The ring difference of stamp a over stamp b (R30). -/
def ringDiff (a b : Nat) : Nat := if b ≤ a then a - b else a + Config.stampRing - b

/-- Stamp a is newer than stamp b (R30). -/
def newerThan (a b : Nat) : Bool := decide (1 ≤ ringDiff a b ∧ ringDiff a b ≤ 32767)

/-- The stamp next after s; with no mark, 1 (R30, R33). -/
def nextStamp (mark : Nat) : Nat := if mark = 0 then 1 else if mark = Config.stampRing then 1 else mark + 1

/-- The floor stamp: 32766 behind the mark (R32). -/
def floorStamp (mark : Nat) : Nat :=
  if Config.stampReach < mark then mark - Config.stampReach else mark + Config.stampRing - Config.stampReach

/-- A stamp read through the floor of a mark (R32). -/
def floored (mark stamp : Nat) : Nat :=
  if stamp ≠ 0 ∧ Config.stampReach < ringDiff mark stamp then floorStamp mark else stamp

/-- Offer a stamp to the mark (R31); when the mark advances, every stored stamp is floored (R32). -/
def offerStamp (stamp : Nat) (r : Roster) : Roster :=
  if stamp = 0 then r
  else if r.mark = 0 ∨ newerThan stamp r.mark then
    { r with mark := stamp, records := r.records.map fun x => { x with stamp := floored stamp x.stamp } }
  else r

/-! ### The effect of each message (R23 to R27) -/

/-- The class inferred from a state summary (R26). -/
def inferredClass (summary : Option SeqState) : Nat :=
  match summary with
  | some .parked | some .serviceWait | some .serviceRun | some .serviceIdle | some .shedPending => 5
  | _ => 2

/-- The sender's record after a CLAIM (R23), its stamp not yet floored. -/
def afterClaim (x : StationRecord) (c : Claim) (now : Nat) : StationRecord :=
  { x with
    committed := c.draw, cls := c.cls, stamp := c.stamp, dmax := c.dmax, demand := none, fresh := true, heard := now }

/-- The sender's record after a RELEASE (R24). -/
def afterRelease (x : StationRecord) (r : Release) (now : Nat) : StationRecord :=
  if r.draw = 0 then { x with committed := 0, stamp := 0, cls := 0, fresh := true, heard := now }
  else
    { x with
      committed := r.draw, stamp := r.stamp, fresh := true, heard := now
      cls := if x.cls = 0 then inferredClass x.summary else x.cls }

/-- The sender's record after a PRESENCE (R25, R27); `known` says that the record stood before it. -/
def afterPresence (known : Bool) (x : StationRecord) (p : Presence) (now : Nat) : StationRecord :=
  { x with
    summary := some p.summary, serviceSelected := p.serviceSelected, lockout := p.lockout, shedPending := p.shedPending,
    dmax := p.dmax, gmax := p.gmax, stamp := p.stamp, committed := p.committed, demand := p.demand,
    fresh := true, heard := now
    cls :=
      if known && decide (x.committed = p.committed) then x.cls
      else if p.committed = 0 then 0 else inferredClass (some p.summary) }

/-- The record a message leaves, on the record that stood or on a new one (R21). -/
def afterMessage (old : Option StationRecord) (m : Message) (now : Nat) : StationRecord :=
  let x := old.getD { station := m.station, heard := now }
  match m.body with
  | .claim c => afterClaim x c now
  | .release r => afterRelease x r now
  | .presence p => afterPresence old.isSome x p now

/-- The stamp a message offers to the mark: that of a CLAIM, of a RELEASE with a nonzero draw, or of a PRESENCE (R31). -/
def offeredStamp (b : Body) : Nat :=
  match b with
  | .claim c => c.stamp
  | .release r => if r.draw = 0 then 0 else r.stamp
  | .presence p => p.stamp

/-- The fields whose change is a roster change (R28). -/
def sameStanding (a b : StationRecord) : Bool :=
  decide (a.committed = b.committed ∧ a.cls = b.cls ∧ a.stamp = b.stamp ∧ a.fresh = b.fresh ∧ a.demand = b.demand)

/-- Two record lists hold the same stations with the same standing (R28). -/
def sameStandings : List StationRecord → List StationRecord → Bool
  | [], [] => true
  | a :: as, b :: bs => decide (a.station = b.station) && sameStanding a b && sameStandings as bs
  | _, _ => false

/-- The roster after a delivered message: the offer to the mark, the floor, and the sender's record (R20, R23 to R25, R31,
R32). A CLOSED roster discards the message (R18). -/
def deliverToRoster (m : Message) (now : Nat) (r : Roster) : Roster :=
  if !r.isOpen then r
  else
    let x := afterMessage (findRecord r.records m.station) m now
    let r := offerStamp (offeredStamp m.body) r
    { r with records := putRecord r.records { x with stamp := floored r.mark x.stamp } }

/-! ### The restoration order (R34) -/

/-- An entry of the restoration order. -/
structure Entry where
  station : Nat
  draw : Int
  cls : Nat
  stamp : Nat
deriving DecidableEq, Repr

/-- Entry a stands before entry b: stamped entries first, by their distance behind the mark; equal stamps and stamp 0 by
station number, higher first (R34). -/
def entryBefore (mark : Nat) (a b : Entry) : Bool :=
  if a.stamp = 0 then decide (b.stamp = 0 ∧ b.station < a.station)
  else if b.stamp = 0 then true
  else if ringDiff mark a.stamp = ringDiff mark b.stamp then decide (b.station < a.station)
  else decide (ringDiff mark a.stamp < ringDiff mark b.stamp)

/-- Insert an entry at its place in the order. -/
def insertEntry (mark : Nat) (e : Entry) : List Entry → List Entry
  | [] => [e]
  | x :: rest => if entryBefore mark e x then e :: x :: rest else x :: insertEntry mark e rest

/-- The controller's own entry, its stamp read through the floor (R32, R34). -/
def ownEntry (s : State) : Entry :=
  { station := s.station, draw := s.seq.commitment, cls := s.seq.claimClass, stamp := floored s.roster.mark s.seq.stamp }

/-- The entry of a record. -/
def recordEntry (r : StationRecord) : Entry :=
  { station := r.station, draw := r.committed, cls := r.cls, stamp := r.stamp }

/-- The restoration order, newest first: the controller itself and every record that draws (R34). -/
def restorationOrder (s : State) : List Entry :=
  (ownEntry s :: (s.roster.records.filter fun r => decide (0 < r.committed)).map recordEntry).foldr
    (insertEntry s.roster.mark) []

/-- The position, from 1, of a station in the restoration order; 0 when it is not in it (R35). -/
def orderPosition (station : Nat) (order : List Entry) : Nat :=
  match order with
  | [] => 0
  | e :: rest =>
    if e.station = station then 1
    else match orderPosition station rest with
      | 0 => 0
      | n => n + 1

end Sys2Proof.Machine
end

