-- ==== Sys2Proof/Machine/Shedding.lean ====
section
/-!
DEFINITION. The shed test and the shedding of the own car (R151 to R157), and what a roster change sets off (R28).
-/

namespace Sys2Proof.Machine

/-- The sum of the announced draws, the own among them, not yet held (R152). -/
def announcedTotal (s : State) : Nat :=
  s.seq.commitment.toNat + (s.roster.records.map fun r => r.committed.toNat).sum

/-- A sum over stations is held at 65535 (R42). -/
def heldSum (n : Nat) : Nat := min Config.sumLimit n

/-- The shed excess E = T + D − Cap, at the Cap the supply monitor holds (R152). -/
def shedExcess (s : State) : Int :=
  (heldSum (announcedTotal s) : Int) + max 0 (s.roster.largestDemand.getD 0) - (s.supply.capHeld : Int)

/-- The candidates: entries of the restoration order that draw and whose class is not 1 or 2 (R153). -/
def shedCandidates (s : State) : List Entry :=
  (restorationOrder s).filter fun e => decide (0 < e.draw ∧ e.cls ≠ 1 ∧ e.cls ≠ 2)

/-- The walk from the head: it stops at the first entry after whose draw the accumulation is E or more (R153). -/
def shedWalk (excess acc : Int) : List Entry → List Entry
  | [] => []
  | e :: rest => if excess ≤ acc + e.draw then [e] else e :: shedWalk excess (acc + e.draw) rest

/-- The shed set (R153). -/
def shedSet (s : State) : List Entry :=
  if 0 < shedExcess s then shedWalk (shedExcess s) 0 (shedCandidates s) else []

/-- Enter SHED_PENDING: the run goes on (R156). -/
def enterShedPending (s : State) : State := markPresence (goTo .shedPending s)

/-- A shed owed while the CLAIM is SENDING: cancel mark, withdrawn mark, shed-owed mark (R155). -/
def oweShed (s : State) : State :=
  let s := { s with seq := { s.seq with
    shedOwed := true
    trip := s.seq.trip.map fun t => { t with cancel := true } } }
  withdrawClaim s

/-- Shed the own car, as its state gives (R154). -/
def shedCar (s : State) : State :=
  match s.seq.state with
  | .serviceIdle =>
    let s := { s with seq := { s.seq with idleTimer := .stopped } }
    enterParked (postShed s.seq.lastTripId s)
  | .serviceWait =>
    if s.con.attempt.isSending .claim then oweShed s
    else enterParked (postShed s.seq.lastTripId (endTrip (withdrawClaim s)))
  | .serviceRun => enterShedPending s
  | .assess | .evacWait => postShed s.seq.lastTripId s
  | _ => s

/-- The shed test (R151): the view is written, a T held at 65535 raises SATURATE (R152), and the own car sheds if it is in the
set. It is run in the driving states alone. -/
def shedTest (s : State) : State :=
  if !s.seq.state.driving then s
  else
    let set := shedSet s
    let own := set.any fun e => e.station == s.station
    let view : ShedView := { excess := shedExcess s, size := set.length, own := own }
    let saturated := heldSum (announcedTotal s) == Config.sumLimit
    let s := raiseIf saturated .saturate { s with adm := { s.adm with shedView := view } }
    if own then shedCar s else s

/-- A shed hold in AWAIT_DEMAND becomes CLEAR when the roster yields no demand (R157). -/
def releaseShedHold (s : State) : State :=
  if s.seq.shedHold = .awaitDemand ∧ s.roster.largestDemand = none then
    { s with seq := { s.seq with shedHold := .clear } }
  else s

/-- A roster change (R28): the shed hold looks at the demands, and the shed test runs. -/
def rosterChanged (s : State) : State := shedTest (releaseShedHold s)

/-- Write a roster; when a record's standing differs, that is a roster change (R28). -/
def changeRoster (r : Roster) (s : State) : State :=
  let changed := !sameStandings s.roster.records r.records
  let s := { s with roster := r }
  if changed then rosterChanged s else s

end Sys2Proof.Machine
end

