-- ==== Sys2Proof/Machine/Admit.lean ====
section
/-!
DEFINITION. The admission test (R38 to R54, R57): the sums over other stations, the speed search, the outcome, the admission
view, and what an evaluation sets off.
-/

namespace Sys2Proof.Machine

/-! ### The sums (R40 to R42) -/

/-- The total of the motoring contributions (R40). -/
def motoringTotal (s : State) : Nat :=
  (s.roster.records.map fun r => if r.fresh then r.committed.toNat else r.dmax).sum
    + unheardCount s * (conf s).phant

/-- The total of the returning contributions (R41). -/
def returningTotal (s : State) : Nat :=
  (s.roster.records.map fun r => if r.fresh then (-r.committed).toNat else r.gmax).sum

/-- Mpos (R40, R42). -/
def motoringSum (s : State) : Nat := heldSum (motoringTotal s)

/-- Gneg (R41, R42). -/
def returningSum (s : State) : Nat := heldSum (returningTotal s)

/-- StepMax (R39). -/
def stepAllowance (s : State) : Nat := capacityOf s * (conf s).stepa / 100

/-! ### The speed search (R48, R49) -/

/-- The steps searched, in order, with the step's name; a wake trip has its single set and no step (R48). -/
def searchSteps (s : State) (t : Trip) : List (Option SpeedStep × StepFigures) :=
  match t.figures with
  | .wake set => [(none, set)]
  | .run _ _ _ _ =>
    let steps :=
      if t.cls ≤ 2 then
        if s.seq.lockout then [SpeedStep.p25] else [SpeedStep.p100, .p75, .p50, .p25]
      else [SpeedStep.p100, .p75, .p50, .p25].filter fun v => decide ((conf s).lspd.percent ≤ v.percent)
    steps.map fun v => (some v, t.figures.atStep v)

/-- A step fits beside these sums (R49). -/
def stepFits (s : State) (mpos gneg : Nat) (f : StepFigures) : Bool :=
  decide (f.start ≤ stepAllowance s) &&
  match flowOf f.draw with
  | .drawing => decide ((mpos : Int) + f.draw ≤ capacityOf s)
  | .returning => decide ((gneg : Int) + (-f.draw) ≤ (conf s).absorb)
  | .neutral => true

/-- STALE applies: the roster holds a STALE record (R45). -/
def staleApplies (s : State) : Bool := decide (0 < s.roster.staleCount)

/-- PHANTOM applies: a station is unheard (R45). -/
def phantomApplies (s : State) : Bool := decide (0 < unheardCount s)

/-- What an evaluation decides: the outcome and, for ADMIT, the step with its figures. -/
structure Decision where
  outcome : Admission
  offer : Option (Option SpeedStep × StepFigures)
deriving DecidableEq, Repr

/-- The outcome for a trip (R50). -/
def decideTrip (s : State) (t : Trip) : Decision :=
  if (staleApplies s && (conf s).unmaskStale) || (phantomApplies s && (conf s).unmaskPhantom) then
    { outcome := .undecided, offer := none }
  else
    let steps := searchSteps s t
    match steps.find? fun x => stepFits s (motoringSum s) (returningSum s) x.2 with
    | none =>
      let emptyFits := (steps.getLast?.map fun x => stepFits s 0 0 x.2).getD false
      { outcome := if emptyFits then .waitHeadroom else .exceeds, offer := none }
    | some x =>
      if s.supply.settledFor t.cls then { outcome := .admitted, offer := some x }
      else { outcome := .waitSettle, offer := none }

/-- Whether an evaluation is made for the trip record at a reference point (R46). -/
def evaluable (s : State) (t : Trip) : Bool :=
  (t.phase == .pending || (t.phase == .armed && !s.con.attempt.isSending .claim)) &&
    s.seq.state != .fallback && s.seq.state != .isolated

/-- The patience timer after an evaluation (R57). -/
def patienceAfter (p : PatienceTimer) (outcome : Admission) (cls now : Nat) : PatienceTimer :=
  if outcome = .waitHeadroom ∧ cls ≤ 2 then
    match p with
    | .stopped => .running now
    | other => other
  else .stopped

/-- The view an evaluation writes: every field but the trip id and the refusal (R47). -/
def viewAfter (s : State) (d : Decision) : AdmissionView :=
  { s.adm.view with
    outcome := d.outcome
    step := d.offer.bind fun x => x.1
    mpos := motoringSum s, gneg := returningSum s, cap := capacityOf s, stepMax := stepAllowance s
    unheard := unheardCount s, stale := s.roster.staleCount }

/-- EXCEEDS ends the trip (R54, R135): the record is NONE, the CLAIM slot empty, the timers stopped, the demand withdrawn,
the refusal held for SENSE (R169), and the sequencer returns to the origin with PRESENCE marked due. -/
def endExceeded (t : Trip) (s : State) : State :=
  let s := endTrip { s with
    con := { s.con with claimSlot := none }
    adm := { s.adm with view := { s.adm.view with exceeded := true } }
    link := { s.link with reason := .exceedsCapacity, detail := t.id.val } }
  returnToOrigin t.origin s

/-- The conditions an evaluation raises (R42, R45). -/
def raiseAtEvaluation (s : State) : State :=
  let saturated := motoringSum s == Config.sumLimit || returningSum s == Config.sumLimit
  raiseIf saturated .saturate (raiseIf (phantomApplies s) .phantom (raiseIf (staleApplies s) .stale s))

/-- One evaluation of a trip (R45, R46, R47, R50, R54, R57). -/
def evaluateTrip (t : Trip) (s : State) : State :=
  let d := decideTrip s t
  let s := { raiseAtEvaluation s with
    adm := { (raiseAtEvaluation s).adm with
      view := viewAfter s d, patience := patienceAfter s.adm.patience d.outcome t.cls s.now } }
  if d.outcome = .exceeds then endExceeded t s else s

/-- The evaluation of a reference point, if one is made (R46). -/
def evaluate (s : State) : State :=
  match s.seq.trip with
  | some t => if evaluable s t then evaluateTrip t s else s
  | none => s

/-- The step the evaluation of this reference point admits, read from the state before it (R52). -/
def admittedOffer (s : State) : Option (Option SpeedStep × StepFigures) :=
  match s.seq.trip with
  | some t => if evaluable s t then (decideTrip s t).offer else none
  | none => none

end Sys2Proof.Machine
end

