-- ==== Sys2Proof/Machine/Contend.lean ====
section
/-!
DEFINITION. Reference points, the choice, keys and slot waits (R100 to R108), and what the end of an attempt sets off: own
completion (R113, R135, R136, R142), the end of a cancelled claim (R144, R155), failure (R114) with the entry to FALLBACK
(R158), and observation (R97, R177, R178).
-/

namespace Sys2Proof.Machine

/-! ### The choice (R103, R104, R107, R108) -/

/-- The key of an attempt (R103). -/
def keyOf (cls station : Nat) : Nat := cls * 64 + station

/-- The slot wait of a key (R104). -/
def slotWait (key : Nat) : Nat := (12 + 2 * key) * Config.bitTime

/-- Choose an attempt at a reference point: its key, its slot timer, WAITING (R103, R104, R108). -/
def beginAttempt (instant : Nat) (b : Body) (s : State) : State :=
  let key := keyOf b.cls s.station
  { s with con := { s.con with
    attempt := .waiting b, key := key, slotDeadline := some (instant + slotWait key) } }

/-- The CLAIM of a trip admitted with these figures (R52, R108); its stamp is the next after the mark (R33). -/
def claimOf (s : State) (t : Trip) (offer : Option SpeedStep × StepFigures) : Claim :=
  { cls := t.cls, kind := t.figures.kind, speed := offer.1.getD .p25, tripId := t.id, draw := offer.2.draw,
    start := offer.2.start, stamp := nextStamp s.roster.mark, dmax := (conf s).dmax }

/-- The PRESENCE of the present standing (R91, R108). -/
def presenceOf (s : State) : Presence :=
  { summary := s.seq.state, serviceSelected := s.seq.serviceSelected, lockout := s.seq.lockout,
    shedPending := s.seq.state == .shedPending, demand := s.adm.ownDemand, committed := s.seq.commitment,
    dmax := (conf s).dmax, gmax := (conf s).gmax, stamp := s.seq.stamp }

/-- Choose the CLAIM: the trip record follows "claim chosen" (R108, R135). -/
def chooseClaim (instant : Nat) (t : Trip) (offer : Option SpeedStep × StepFigures) (s : State) : State :=
  beginAttempt instant (.claim (claimOf s t offer)) (changeTrip (some { t with phase := .armed, step := offer.1 }) s)

/-- Choose the PRESENCE if it is due; its re-marked mark is cleared (R107, R108). -/
def choosePresence (instant : Nat) (s : State) : State :=
  if s.con.presenceDue then
    beginAttempt instant (.presence (presenceOf s)) { s with con := { s.con with remarked := false } }
  else s

/-- A choice is made: round OPEN, spoken flag clear, a driving state, no attempt in hand (R100, R101, R102, R107). -/
def mayChoose (s : State) : Bool :=
  s.con.roundOpen && !s.con.spoken && s.seq.state.driving && s.con.attempt == .none

/-- The choice at a reference point (R107). -/
def chooseSlot (instant : Nat) (offer : Option (Option SpeedStep × StepFigures)) (s : State) : State :=
  if mayChoose s then
    match s.con.releaseSlot with
    | some r => beginAttempt instant (.release r) s
    | none =>
      match s.con.claimSlot, offer, s.seq.trip with
      | some _, some o, some t => chooseClaim instant t o s
      | _, _, _ => choosePresence instant s
  else s

/-- A reference point: the round timer restarts from its instant, the evaluation is made, then the choice (R100). -/
def referencePoint (instant : Nat) (s : State) : State :=
  let s := { s with con := { s.con with roundTimer := .running instant } }
  chooseSlot instant (admittedOffer s) (evaluate s)

/-! ### Observation (R97, R177, R178) -/

/-- The observation entry of a message (R97, R178). -/
def observationOf (m : Message) (own : Bool) : Observation :=
  { kind := m.body.kind, station := m.station, cls := m.body.cls, draw := m.body.draw, stamp := m.body.stamp, own := own
    start := match m.body with
      | .claim c => some c.start
      | _ => none
    tag := m.body.tag }

/-- The bit of a kind in a kind set (R173). -/
def MessageKind.setBit : MessageKind → Nat
  | .release => 0
  | .claim => 1
  | .presence => 2

/-- An entry matches a filter: its kind is in the set and its station agrees in every cared-for bit (R177). -/
def ObservationFilter.accepts (f : ObservationFilter) (o : Observation) : Bool :=
  f.kinds.getLsbD o.kind.setBit && (f.care &&& (f.pattern ^^^ octet o.station)) == 0

/-- Offer an entry to the filters (R177); a kept one joins the queue, or is lost with overrun when 16 stand in it (R178). -/
def offerObservation (o : Observation) (s : State) : State :=
  if s.link.accept.accepts o && !s.link.reject.accepts o then
    if s.link.queue.length < Config.queueLimit then
      attend { s with link := { s.link with queue := s.link.queue ++ [o] } }
    else if s.link.overrun then s
    else attend { s with link := { s.link with overrun := true } }
  else s

/-! ### A start on the plant (R73) -/

/-- A completed or heard start restarts a settle timer that is RUNNING or EXPIRED (R73). -/
def restartSettle (s : State) : State :=
  match s.supply.settle with
  | .stopped => s
  | _ => { s with supply := { s.supply with settle := .running s.now } }

/-- A supply change notice abandons a WAITING attempt (R111). -/
def supplyNotice (s : State) : State := abandonAttempt s

/-- The events that deliver a notice: a change of Cap, of the frequency class, or of a settled indication (R75). -/
def noticeDue (before after : SupplyMonitor) : Bool :=
  before.capHeld != after.capHeld || before.freqClass != after.freqClass ||
    before.settledEvac != after.settledEvac || before.settledService != after.settledService

/-- One notice, if the event changed any of those things (R75). -/
def noticeAfter (before : SupplyMonitor) (s : State) : State :=
  if noticeDue before s.supply then supplyNotice s else s

/-- A CLAIM that is a start restarts the settle timer, which may lower the settled indications (R73 to R75). -/
def noteStart (b : Body) (s : State) : State :=
  match b with
  | .claim c => if 0 < c.start then noticeAfter s.supply (restartSettle s) else s
  | _ => s

/-! ### The end of the own attempt (R113, R114, R135, R136, R142, R144, R155) -/

/-- The own standing after an own CLAIM (R119). -/
def standingFromClaim (c : Claim) (s : State) : State :=
  { s with seq := { s.seq with commitment := c.draw, claimClass := c.cls, stamp := c.stamp } }

/-- The own standing after an own RELEASE (R119). -/
def standingFromRelease (r : Release) (s : State) : State :=
  if r.draw = 0 then zeroStanding s
  else { s with seq := { s.seq with commitment := r.draw, stamp := r.stamp } }

/-- The completed claim of a RUN trip starts the run: SPD, then RUNP, the run timer, and the state of the purpose (R136). -/
def startRun (t : Trip) (s : State) : State :=
  let s := changeTrip (some { t with phase := .running }) { s with seq := { s.seq with
    spd := t.step.getD .p25, runp := true, runTimer := .running s.now } }
  goTo (match t.purpose with
    | .evacuation => .evacRun
    | .service => .serviceRun) s

/-- The completed claim of a WAKE trip: the record is NONE and the car is LANDED or SERVICE_IDLE (R135, R145, R148). -/
def finishWake (t : Trip) (s : State) : State :=
  let s := endTrip s
  match t.purpose with
  | .evacuation => enterLanded s
  | .service => enterServiceIdle s

/-- A claim that was withdrawn or cancelled while SENDING has ended, by completion or by failure (R144, R155). -/
def endCancelled (completed : Bool) (t : Trip) (s : State) : State :=
  let s := endTrip s
  let s :=
    if s.seq.shedOwed then
      enterParked (postShed t.id { s with seq := { s.seq with shedOwed := false } })
    else if completed then
      let p := t.prior.getD { draw := 0, stamp := 0 }
      returnToOrigin t.origin (postRelease
        { reason := .cancelled, tripId := t.id, draw := p.draw, stamp := if p.draw = 0 then 0 else p.stamp } s)
    else returnToOrigin t.origin s
  answerHeld (if completed then .check .tooLate t.id.val else .accepted (stateData s)) s

/-- Keep what a TRIP-CANCEL of this very instant would find of a CLAIM that has completed, before the completion writes the own
standing (R115, R144, log 45). -/
def noteClaim (s : State) : State :=
  { s with seq := { s.seq with lastClaim := s.seq.trip.map fun t =>
    { trip := { t with cancel := true, prior := some { draw := s.seq.commitment, stamp := s.seq.stamp } }, instant := s.now } } }

/-- What the completion of the own CLAIM does to the trip record (R135, R136, R144, R155). It stops the aging and patience
timers and withdraws the own evac demand (R59). -/
def tripAfterClaim (withdrawn : Bool) (s : State) : State :=
  let s := { s with
    seq := { s.seq with agingTimer := .stopped }
    adm := { s.adm with patience := .stopped, ownDemand := none } }
  match s.seq.trip with
  | none => s
  | some t =>
    if t.cancel || withdrawn then endCancelled true t s
    else match t.figures with
      | .run _ _ _ _ => startRun t s
      | .wake _ => finishWake t s

/-- The contention unit after an own completion: failure count 0, spoken flag set, presence-due timer restarted, attempt
NONE (R113). The slot is emptied by the caller. -/
def ContentionUnit.completed (c : ContentionUnit) (now : Nat) : ContentionUnit :=
  { c.noAttempt with failures := 0, spoken := true, presenceTimer := .running now }

/-- The own RELEASE completes (R113, R119, R142): a superseding one stays in the slot. -/
def completeRelease (r : Release) (s : State) : State :=
  let c := s.con.completed s.now
  let s := { s with con := { c with
    releaseSlot := if s.con.superseded then s.con.releaseSlot else none
    superseded := false } }
  let s := standingFromRelease r s
  if tripIn .ending s then changeTrip none s else s

/-- The own CLAIM completes (R113, R119, R135); then its stamp is offered to the mark (R31, log 19). -/
def completeClaim (c : Claim) (s : State) : State :=
  let withdrawn := s.con.withdrawn
  let s := { s with con := { s.con.completed s.now with claimSlot := none, withdrawn := false } }
  let s := tripAfterClaim withdrawn (standingFromClaim c (noteClaim s))
  changeRoster (offerStamp c.stamp s.roster) s

/-- The own PRESENCE completes (R113): a re-marked slot stays due. -/
def completePresence (s : State) : State :=
  { s with con := { s.con.completed s.now with presenceDue := s.con.remarked, remarked := false } }

/-- The own message completes (R87, R113): the observation filters take it with origin OWN, a start restarts the settle
timer, and its kind's effects follow. -/
def completeOwn (b : Body) (s : State) : State :=
  let s := { s with line := { s.line with transmitter := none } }
  let s := offerObservation (observationOf { station := s.station, body := b } true) s
  let s := match b with
    | .release r => completeRelease r s
    | .claim c => completeClaim c s
    | .presence _ => completePresence s
  noteStart b s

/-! ### Departures from the driving states (R129, R130, R158, R163, R164) -/

/-- What every departure does to the trip, the standing, the slots and the timers of the state left (R116, R129, R130,
R158, R163, R164). -/
def leaveService (s : State) : State :=
  let s := zeroStanding (clearOutbound (discardTrip s))
  { s with seq := { s.seq with
    startWindow := .stopped, joinTimer := .stopped, dwellTimer := .stopped, idleTimer := .stopped,
    shedHold := .clear, shedOwed := false, lastClaim := none } }

/-- A cancel reply that still waits is answered accepted at the departure (R164, log 15). -/
def settleReply (s : State) : State := answerHeld (.accepted (stateData s)) s

/-- Enter FALLBACK on LINE_FAULT (R158). -/
def enterFallback (s : State) : State :=
  let s := holdCar (leaveService s)
  let s := { s with seq := { s.seq with landedMark := s.seq.report.position == .atLanding } }
  settleReply (goTo .fallback s)

/-- A failed attempt (R114): the count rises, the attempt is NONE, the message stays in its slot; a withdrawn CLAIM is
emptied from it instead (R115). -/
def failSlot (b : Body) (s : State) : State :=
  let s := { s with
    con := { s.con.noAttempt with failures := s.con.failures + 1 }
    line := s.line.release s.now }
  match b with
  | .release _ => { s with con := { s.con with superseded := false } }
  | .presence _ => s
  | .claim _ =>
    if s.con.withdrawn then
      let s := { s with con := { s.con with claimSlot := none, withdrawn := false } }
      match s.seq.trip with
      | some t => endCancelled false t s
      | none => s
    else claimLost s

/-- The line unit reports a failure (R86, R87, R114); the eighth in a row is LINE_FAULT (R158). -/
def failAttempt (s : State) : State :=
  match s.con.attempt with
  | .sending b =>
    let s := failSlot b s
    if Config.failureLimit ≤ s.con.failures ∧ s.seq.state.driving then enterFallback s else s
  | _ => s

end Sys2Proof.Machine
end

