-- ==== Sys2Proof/Machine/Session.lean ====
section
/-!
DEFINITION. The session: waiting for the plant and joining (R121 to R124), its loss (R129), isolation (R130), return to
utility (R163), the supply monitor's events (R65 to R76), and the fallback windows (R159, R161).
-/

namespace Sys2Proof.Machine

/-! ### Waiting and joining -/

/-- Enter JOINING (R124): standing zeroed, roster cleared and opened (R19), settle timer and join timer started, PRESENCE
marked due with its timer started, the report's fresh mark cleared. -/
def enterJoining (s : State) : State :=
  let s := goTo .joining (zeroStanding s)
  let s := { s with
    seq := { s.seq with
      startWindow := .stopped, joinTimer := .running s.now, report := { s.seq.report with fresh := false } }
    adm := { s.adm with ownDemand := none }
    supply := { s.supply with settle := .running s.now }
    con := { s.con with presenceTimer := .running s.now } }
  markPresence (changeRoster { isOpen := true } s)

/-- Enter AWAIT_SUPPLY with a window; a supply already good is acted on at once (R122). -/
def enterAwaitSupply (window : Nat) (s : State) : State :=
  let s := goTo .awaitSupply (holdCar s)
  let s := { s with seq := { s.seq with startWindow := .running s.now, startWindowLength := window } }
  if s.supply.good then enterJoining s else s

/-- Enter NO_SUPPLY when the window expires; supply good is read at entry (R122, R123). -/
def enterNoSupply (s : State) : State :=
  let s := goTo .noSupply { s with seq := { s.seq with startWindow := .stopped } }
  if s.supply.good then enterJoining s else s

/-- A rise of supply good (R122, R123). -/
def onSupplyGood (s : State) : State :=
  match s.seq.state with
  | .awaitSupply | .noSupply => enterJoining s
  | _ => s

/-- SUPPLY_LOSS in a supplied state (R129), with the supply monitor's own part (R76). -/
def onSupplyLoss (s : State) : State :=
  let s := leaveService s
  let s := { s with
    roster := {}
    supply := { s.supply with settle := .stopped, underTimer := .stopped } }
  settleReply (enterAwaitSupply Config.laterWindow s)

/-- Enter ISOLATED (R130); the UNDER timer stops (R72). The roster stays as it stood (R19). -/
def enterIsolated (s : State) : State :=
  let s := holdCar (leaveService s)
  let s := { s with supply := { s.supply with underTimer := .stopped } }
  settleReply (goTo .isolated s)

/-- TAKEOVER (R120, R121): the takeover instant is the session origin. -/
def onTakeover (s : State) : State :=
  match s.seq.state with
  | .unconfigured => { s with seq := { s.seq with runp := false, spd := .p25 } }
  | .dormant =>
    let first := s.seq.firstTakeover
    let s := { s with seq := { s.seq with sessionOrigin := some s.now, firstTakeover := false } }
    if s.seq.duplicate then enterIsolated s
    else enterAwaitSupply (if first then Config.firstWindow else Config.laterWindow) s
  | _ => s

/-- The supply monitor at session end (R76): Cap is formed afresh with K at 0, as no change. -/
def supplyAtSessionEnd (s : State) : State :=
  let s := { s with supply := { s.supply with
    derate := 0, episodeMark := false, underTimer := .stopped, settle := .stopped, holdTimer := .stopped } }
  { s with supply := { s.supply with capHeld := if configured s then capacityOf s else 0 } }

/-- The session ends (R163): the sequencer enters DORMANT. -/
def endSession (s : State) : State :=
  let s := leaveService s
  let s := { s with
    roster := {}
    seq := { s.seq with
      runp := true, spd := .p100, shdn := false, emop := false, lockout := false, landedMark := false,
      sessionOrigin := none } }
  settleReply (goTo .dormant s)

/-- RETRANSFER (R76, R120, R163). -/
def onRetransfer (s : State) : State :=
  let s := supplyAtSessionEnd s
  match s.seq.state with
  | .unconfigured => { s with seq := { s.seq with runp := true, spd := .p100 } }
  | .dormant => s
  | _ => endSession s

/-! ### Changes of the supply monitor (R68 to R75) -/

/-- What a change of the supply delivers to the sequencer: a rise of supply good, or SUPPLY_LOSS in a supplied state (R68,
R69). -/
def supplyEdge (before : SupplyMonitor) (s : State) : State :=
  if s.supply.good && !before.good then onSupplyGood s
  else if s.supply.lost && !before.lost && s.seq.state.supplied then onSupplyLoss s
  else s

/-- The monitor when the class becomes `c` (R67, R72): the in-window time, the UNDER timer, the end of an episode. -/
def SupplyMonitor.withClass (m : SupplyMonitor) (c : FreqClass) (supplied : Bool) (now : Nat) : SupplyMonitor :=
  if m.freqClass = c then m
  else
    { m with
      freqClass := c
      inWindowTimer := if c = .inWindow then .running now else .stopped
      inWindowHalf := false
      underTimer := if c = .under ∧ supplied then .running now else .stopped
      episodeMark := if c = .inWindow then false else m.episodeMark }

/-- The class becomes `c`: one notice if anything changed, then the events of the sequencer (R65, R69, R75). -/
def becomeClass (c : FreqClass) (s : State) : State :=
  let before := s.supply
  let s := { s with supply := s.supply.withClass c s.seq.state.supplied s.now }
  supplyEdge before (noticeAfter before s)

/-- The class of a period, in microseconds, at a nominal frequency (R65): the frequency is 1000000 / period. -/
def classifyPeriod (fnom period : Nat) : FreqClass :=
  if 1015 * fnom * period < 1000000000 then .offWindow
  else if 985 * fnom * period ≤ 1000000000 then .inWindow
  else if 940 * fnom * period ≤ 1000000000 then .offWindow
  else .under

/-- The nominal frequency in use: 50 Hz until a CONFIGURE is accepted (R60). -/
def nominalFrequency (s : State) : Nat := if configured s then (conf s).fnom else 50

/-- A pulse begins a train: it measures nothing (R66). -/
def beginTrain (s : State) : State :=
  { s with supply := { s.supply with train := some s.now, absenceTimer := .running s.now } }

/-- 100 ms without a pulse: the train ends and the class becomes ABSENT (R66). -/
def becomeAbsent (s : State) : State :=
  becomeClass .absent { s with supply := { s.supply with train := none, absenceTimer := .stopped } }

/-- Cap is formed anew (R70): a change starts the hold (R71), delivers one notice (R75) and, when it is a fall in a session,
raises CAP_DROP to the shed test (R151). That the notice comes before CAP_DROP is the model's choice (log 44). -/
def reformCap (s : State) : State :=
  let before := s.supply
  let cap := capacityOf s
  if !configured s || cap == before.capHeld then s
  else
    let s := { s with supply := { s.supply with capHeld := cap, holdTimer := .running s.now } }
    let s := noticeAfter before s
    if cap < before.capHeld ∧ s.seq.state.session then shedTest s else s

/-! ### The fallback windows (R159, R161) -/

/-- W in microseconds. -/
def windowTime (s : State) : Nat := (conf s).window * Config.second

/-- The cycle length CENSUS × W. -/
def cycleTime (s : State) : Nat := (conf s).census * windowTime s

/-- The offset: the time since the session origin modulo the cycle (R159). -/
def windowOffset (s : State) : Nat := (s.now - s.seq.sessionOrigin.getD 0) % cycleTime s

/-- The offset at which the own window opens. -/
def windowOpening (s : State) : Nat := (s.station - 1) * windowTime s

/-- The own window is open. -/
def windowOpen (s : State) : Bool :=
  decide (windowOpening s ≤ windowOffset s ∧ windowOffset s < s.station * windowTime s)

/-- The first half of the own window is open. -/
def firstHalfOpen (s : State) : Bool :=
  decide (windowOpening s ≤ windowOffset s ∧ windowOffset s < windowOpening s + windowTime s / 2)

/-- The first half of the own window closes at this very instant. -/
def firstHalfCloses (s : State) : Bool := windowOffset s == windowOpening s + windowTime s / 2

/-- The time to the next opening of the own window; at the instant of an opening, a whole cycle (log 29). -/
def timeToOpening (s : State) : Nat :=
  if windowOffset s < windowOpening s then windowOpening s - windowOffset s
  else windowOpening s + cycleTime s - windowOffset s

/-- A PENDING record starts in FALLBACK (R161). -/
def startFallbackTrip (s : State) : State :=
  match s.seq.trip with
  | none => s
  | some t =>
    if t.phase ≠ .pending then s
    else match t.figures with
      | .run _ _ _ _ =>
        changeTrip (some { t with phase := .running }) { s with seq := { s.seq with
          spd := .p25, runp := true, runTimer := .running s.now, commitment := t.figures.floorDraw,
          claimClass := t.cls, stamp := 0 } }
      | .wake _ =>
        let s := endTrip s
        { s with seq := { s.seq with commitment := ((conf s).stby : Int), claimClass := t.cls, stamp := 0 } }

/-- A record created in FALLBACK starts at once when its creation falls in the first half of the own window (R161, log 27). One
created at the instant at which that half closes is PENDING: the next command says which came first (log 43). -/
def startIfOpen (s : State) : State := if firstHalfOpen s then startFallbackTrip s else s

/-- A run ends in FALLBACK: no RELEASE; the commitment becomes STBY (R161). -/
def endFallbackRun (s : State) : State :=
  let s := stopRun (discardTrip s)
  { s with seq := { s.seq with commitment := ((conf s).stby : Int) } }

end Sys2Proof.Machine
end

