-- ==== Sys2Proof/Machine/LineEvents.lean ====
section
/-!
DEFINITION. The commands of the restoration line and of the contention unit: LINE_ACTIVITY_START, LONG_DOMINANT_EXPIRY,
END_OF_ACTIVITY, ROUND_CLOSE, SLOT_EXPIRY, READBACK_MISMATCH, ATTEMPT_JOINED, PRESENCE_DUE_EXPIRY, RECORD_STALE and
FIRST_BASE_GAP.
-/

namespace Sys2Proof.Machine

/-! ### The transmitter and the line (R79, R80, R85, R87) -/

/-- The transmitter has sent its last stop bit and waits for the end of activity: CLOSING (R87). -/
def closing (s : State) : Bool :=
  match s.line.transmitter with
  | none => false
  | some x => decide (x.endsAt ≤ s.now)

/-- The transmitter is SENDING (R85, R87). -/
def transmitting (s : State) : Bool := s.line.transmitter.isSome && !closing s

/-- The level driven on RLTX now (R79, R80, R85). -/
def rltx (s : State) : Level := s.line.driven s.now

/-- The level of the line now: the wired-AND of the own drive and what the others leave (R79). -/
def lineLevel (s : State) : Level := s.line.lineAt s.now

/-- The report of line activity (R81): the round timer stops (R101), and a WAITING attempt is abandoned (R110). -/
def reportActivity (s : State) : State := abandonAttempt { s with con := { s.con with roundTimer := .stopped } }

/-- The line unit after the line has been read on; the beginning of an activity is reported, whoever drives it (R81). -/
def setLine (u : LineUnit) (s : State) : State :=
  if u.active && !s.line.active then reportActivity { s with line := u } else { s with line := u }

/-! ### LONG_DOMINANT_EXPIRY -/

/-- The long-dominant timer reaches its time no later than the change comes (R83). -/
def LineUnit.longBefore (u : LineUnit) (c : LineChange) : Bool :=
  match u.longTimer with
  | .running since => decide (since + Config.longDominant ≤ u.instant c)
  | .stopped => false

/-- Record a line error and raise LINE (R83, R94); nothing before a CONFIGURE is accepted (R98). -/
def lineError (k : LineError) (s : State) : State :=
  if configured s then raise .line { s with line := { s.line with lastError := k } } else s

/-- The long-dominant timer reaches 16 bit times with the line dominant all the while (R83): the activity in progress is
marked and LINE raised at once. A timer that no change told leaves running so long, up to a base gap, reaches nothing; nor does
one while RESET is held, when the line is not read (R79, R132). -/
def execLongDominantExpiry (s : State) : Host.Outcome State Fault Refusal :=
  if inReset s then .next s else
  let v := s.line.follow (fun u c => u.longBefore c || u.gapBefore c) s.line.coming
  match v.longTimer with
  | .stopped => .next s
  | .running since =>
    let u := v.driveTo (since + Config.longDominant)
    if u.longTimer = .running since then
      .next (lineError .longDominant (passTo (since + Config.longDominant)
        (setLine { u with longMark := u.longMark || u.active, longTimer := .stopped } s)))
    else .next s

/-! ### END_OF_ACTIVITY -/

/-- A duplicate (R95): DUPLICATE raised, the duplicate flag set and, in a session state, ISOLATED entered (R130). -/
def takeDuplicate (s : State) : State :=
  let s := raise .duplicate s
  let s := { s with seq := { s.seq with duplicate := true } }
  if s.seq.state.session && s.seq.state != .isolated then enterIsolated s else s

/-- Deliver a valid message (R96): to duplicate detection or to the roster, to the supply monitor when it is a start, to
the observation filters with origin LINE. -/
def deliverMessage (m : Message) (s : State) : State :=
  let s :=
    if m.station = s.station then takeDuplicate s
    else changeRoster (deliverToRoster m s.now s.roster) s
  offerObservation (observationOf m false) (noteStart m.body s)

/-- Judge the received activity and act on it (R92, R94, R96); before configuration nothing is delivered (R98). -/
def judgeAndDeliver (u : LineUnit) (s : State) : State :=
  if !configured s then s
  else match judgeActivity u with
    | .error k => lineError k s
    | .ok m => deliverMessage m s

/-- The activity is the own message, whole and alone (R87). -/
def completesOwn (u : LineUnit) (t : Sending) : Bool :=
  u.octets == t.octets && u.octetCount == t.octets.length && !u.frameMark && !u.longMark

/-- The own attempt at the end of an activity: completed on its own octets, or failed because the activity ran on (R87, log
7); with no message being sent the activity is judged as one from the line. -/
def settleActivity (u : LineUnit) (s : State) : State :=
  match s.line.transmitter, s.con.attempt with
  | some t, .sending b => if completesOwn u t then completeOwn b s else judgeAndDeliver u (failAttempt s)
  | _, _ => judgeAndDeliver u s

/-- The changes of the others' drive that come, told beforehand (log 5). -/
def tell (changes : List LineChange) (s : State) : State :=
  { s with line := { s.line with coming := s.line.coming ++ changes } }

/-- The end of an activity, at its reference and 12 bit times after it: the receiver is QUIET, its last octet complete (R81),
the own attempt is settled or the activity judged and delivered, and the reference is handed on as a reference point (R82, R93,
R100). -/
def endActivity (reference : Nat) (u : LineUnit) (s : State) : State :=
  let s := passTo (reference + Config.baseGap) s
  referencePoint reference (settleActivity u { s with line := u.quiet })

/-- The end of an activity is recognised (R82). While the line stays dominant no end is recognised (R83), and a receiver that waits
for its first base gap has no activity (R98): what is told still comes. -/
def execEndOfActivity (changes : List LineChange) (s : State) : Host.Outcome State Fault Refusal :=
  if s.line.active then
    match s.line.recognised changes with
    | some (reference, u) => .next (endActivity reference u s)
    | none => .next (tell changes s)
  else .next (tell changes s)

/-! ### FIRST_BASE_GAP -/

/-- The line has been recessive for the base gap after a reset (R98, R99): the receiver takes the next edge as an activity, and the
round timer counts from this instant. -/
def openReceiver (u : LineUnit) (s : State) : State :=
  let s := passTo (u.changedAt + Config.baseGap) s
  { s with
    line := { u with coming := [], awaitingGap := false }
    con := { s.con with roundTimer := .running s.now } }

/-- After a reset the line, read on through the changes told, is first found recessive for the base gap (R79, R98, R99). On a line
that they leave dominant, or while RESET is held, no gap is found. -/
def execFirstBaseGap (s : State) : Host.Outcome State Fault Refusal :=
  let u := s.line.follow LineUnit.gapBefore s.line.coming
  if inReset s = false ∧ s.line.awaitingGap = true ∧ u.level = .recessive then .next (openReceiver u s) else .next s

/-! ### LINE_ACTIVITY_START -/

/-- The first edge of the others on a line that reads recessive falls now; the changes that come count from it (log 5). -/
def LineUnit.edgeNow (u : LineUnit) (now : Nat) : LineUnit :=
  { u with startedAt := now }.othersChange { after := 0, level := .dominant }

/-- The others drive the line from now on, within an activity or before the first base gap. -/
def LineUnit.edgeWithin (u : LineUnit) (now : Nat) : LineUnit :=
  u.othersChange { after := now - u.startedAt, level := .dominant }

/-- An activity begins with an edge that falls now: its report stops the round timer (R101) and abandons a WAITING attempt
(R110). -/
def beginActivity (s : State) : State := setLine (s.line.edgeNow s.now) s

/-- The line goes dominant now. While the receiver is QUIET an activity begins (R81). In an ACTIVE receiver, with the line read on
to now, the edge is one of its activity: late, it marks FRAME (R81), and at the very instant of the base gap it is the edge
taken first (R82, logs 31 and 34). Before the first base gap after a reset it begins no activity (R98), but the long-dominant
timer starts (R83, log 18). An edge later than the base gap always begins a new activity (R82): an end, or a first base gap, that no
command has taken is taken before it (log 31). While RESET is held the line unit reads nothing of it (R79). -/
def execLineActivityStart (s : State) : Host.Outcome State Fault Refusal :=
  let u := s.line.readOn s.now
  if inReset s then .next { s with line := { s.line.reset s.now with others := .dominant, level := .dominant } }
  else if s.line.active then
    .next (if u.gapPassed s.now then
        beginActivity (endActivity u.changedAt (u.sampleTo (u.changedAt + Config.baseGap)) s)
      else setLine (u.edgeWithin s.now) s)
  else if s.line.awaitingGap then
    .next (if u.gapPassed s.now then beginActivity (openReceiver u s) else setLine (u.edgeWithin s.now) s)
  else if s.line.level = .recessive then .next (beginActivity s)
  else .next s

/-! ### ROUND_CLOSE -/

/-- The round timer reaches 920 bit times (R101): the spoken flag is cleared, the round state is OPEN, and the close is a
reference point. -/
def execRoundClose (s : State) : Host.Outcome State Fault Refusal :=
  if s.con.roundTimer.isRunning then
    let s := passToExpiry s.con.roundTimer Config.roundLength s
    .next (referencePoint s.now { s with con := { s.con with spoken := false, roundOpen := true } })
  else .next s

/-! ### SLOT_EXPIRY -/

/-- The content handed over at the slot: a RELEASE goes as its slot now holds it (R105, R108). -/
def handedContent (s : State) (b : Body) : Body :=
  match b with
  | .release r => .release (s.con.releaseSlot.getD r)
  | other => other

/-- The slot timer of a WAITING attempt expires (R109): on a recessive line in a driving state the message begins (R85), and a
line that follows the driver goes dominant with it, which is line activity (R79, R81); otherwise the activity under way
abandons the attempt (R110). -/
def execSlotExpiry (s : State) : Host.Outcome State Fault Refusal :=
  match s.con.attempt, s.con.slotDeadline with
  | .waiting b, some deadline =>
    let s := passTo deadline s
    if s.line.level = .recessive ∧ s.line.active = false ∧ s.seq.state.driving then
      let b := handedContent s b
      let x : Sending := { octets := encodeMessage { station := s.station, body := b }, startedAt := s.now }
      .next (setLine (s.line.begin x)
        { s with con := { s.con with attempt := .sending b, slotDeadline := none } })
    else .next (abandonAttempt s)
  | _, _ => .next s

/-! ### READBACK_MISMATCH, ATTEMPT_JOINED -/

/-- At the middle of the k-th bit the line is released and the attempt has failed (R86, R114). -/
def failAtBit (x : Sending) (k : Nat) (s : State) : State :=
  let instant := midBit x.startedAt k
  failAttempt { passTo instant s with line := s.line.release instant }

/-- The line has ceased to follow the driver from the k-th bit on (R86, log 6). -/
def LineUnit.unfollowed (x : Sending) (k : Nat) (u : LineUnit) : LineUnit :=
  { u.driveTo (x.startedAt + k * Config.bitTime - 1) with follows := false }

/-- A sent bit reads back as another level (R86): the first that does so under the changes told; where none does, the bit
being sent, which the line does not follow. A transmitter that is not SENDING compares nothing. -/
def execReadbackMismatch (s : State) : Host.Outcome State Fault Refusal :=
  match s.line.transmitter with
  | none => .next s
  | some x =>
    match s.line.firstMismatch x with
    | some k =>
      let u := s.line.follow (fun u c => decide (midBit x.startedAt k < u.instant c)) s.line.coming
      .next (failAtBit x k (setLine u s))
    | none =>
      if transmitting s then
        let k := (s.now - x.startedAt) / Config.bitTime
        let u := s.line.follow (fun u c => decide (x.startedAt + k * Config.bitTime ≤ u.instant c)) s.line.coming
        .next (failAtBit x k (setLine (u.unfollowed x k) s))
      else .next s

/-- The line goes dominant again after the own last stop bit was read back, before the end is recognised (R87): the attempt
has failed. A change told for later than the base gap joins nothing (R82). -/
def execAttemptJoined (s : State) : Host.Outcome State Fault Refusal :=
  match s.line.transmitter with
  | none => .next s
  | some x =>
    let u := s.line.follow (fun u c => u.joins x || u.gapBefore c) s.line.coming
    if u.joins x then .next (failAttempt (passTo (max x.endsAt u.readTo) (setLine u s))) else .next s

/-! ### PRESENCE_DUE_EXPIRY, RECORD_STALE -/

/-- The report interval in microseconds (R173). -/
def reportTime (s : State) : Nat := (conf s).reportInterval * 100 * Config.millisecond

/-- The presence-due timer reaches the report interval (R106): PRESENCE is due and the timer stops. -/
def execPresenceDueExpiry (s : State) : Host.Outcome State Fault Refusal :=
  if s.con.presenceTimer.isRunning then
    let s := passToExpiry s.con.presenceTimer (reportTime s) s
    .next (markPresence { s with con := { s.con with presenceTimer := .stopped } })
  else .next s

/-- The stale time: four report intervals (R22). -/
def staleTime (s : State) : Nat := 4 * reportTime s

/-- The age of a station's FRESH record reaches the stale time (R22): it goes STALE, a roster change (R28). -/
def execRecordStale (station : Nat) (s : State) : Host.Outcome State Fault Refusal :=
  match findRecord s.roster.records station with
  | some r =>
    if r.fresh then
      let s := passTo (r.heard + staleTime s) s
      .next (changeRoster { s.roster with records := putRecord s.roster.records { r with fresh := false } } s)
    else .next s
  | none => .next s

end Sys2Proof.Machine
end

