-- ==== Sys2Proof/Machine/LinkRequests.lean ====
section
/-!
DEFINITION. The requests that configure and read the controller (R172 to R180), the frames that are not taken (R167), the
end of a reply (R168).
-/

namespace Sys2Proof.Machine

/-! ### CONFIGURE (R172, R173) -/

/-- Why a record is refused, in the order of R172: straps, fields, run limit against W, census. -/
def configureRefusal (station : Nat) (values : List Nat) : Option (Reason × Nat) :=
  let c := configurationOf values
  if station = 0 ∨ station = 63 then some (.badStation, station)
  else
    match firstBadField fieldRules values 1 with
    | some k => some (.badField, k)
    | none =>
      if c.window < 2 * c.runLimit then some (.badField, 20)
      else if c.census < station then some (.badStation, station)
      else none

/-- The configuration of a record with its declared maxima (R13, R172). -/
def acceptedConfiguration (values : List Nat) : Configuration :=
  let c := configurationOf values
  { c with dmax := declaredDmax c, gmax := declaredGmax c }

/-- Leave UNCONFIGURED (R120): DORMANT while TRN reads normal, else AWAIT_SUPPLY with 60 s and the session origin now. -/
def leaveUnconfigured (s : State) : State :=
  match s.supply.trn with
  | .normal => goTo .dormant { s with seq := { s.seq with runp := true, spd := .p100 } }
  | .emergency =>
    enterAwaitSupply Config.firstWindow { s with seq := { s.seq with
      sessionOrigin := some s.now, firstTakeover := false } }

/-- An accepted record (R172): the store, the first formation of Cap as no change (R70), the filters (R177), the state. -/
def acceptConfiguration (values : List Nat) (s : State) : State :=
  let s := { s with
    config := some (acceptedConfiguration values)
    link := { s.link with accept := acceptFilterOf values, reject := rejectFilterOf values } }
  let s := { s with supply := { s.supply with capHeld := capacityOf s } }
  leaveUnconfigured s

/-- CONFIGURE judged (R172); the reply reports station number, DMAX, GMAX and the state entered (R171). -/
def judgeConfigure (record : List Byte) (s : State) : State × Answer :=
  if configured s then (s, .check .alreadyConfigured 0)
  else
    let values := fieldValues fieldRules record
    match configureRefusal s.station values with
    | some (reason, detail) => (s, .check reason detail)
    | none =>
      let s := acceptConfiguration values s
      (s, .accepted (octet s.station :: word16 (conf s).dmax ++ word16 (conf s).gmax ++ [octet s.seq.state.code]))

/-- A frame that fails a check is discarded at its end: the receiver is IDLE, or DISCARDING when a reply is outstanding or it
discards already (R167, R168). -/
def discardFrame (s : State) : State :=
  let s := octetsArrive s
  match s.link.receiver with
  | .receiving _ => { s with link := { s.link with receiver := .idle } }
  | _ => s

/-- CONFIGURE; a record of another length than 42 octets is a frame that R167 discards. -/
def execConfigure (record : List Byte) (s : State) : Host.Outcome State Fault Refusal :=
  .next (if record.length = 42 then takeRequest 1 true (judgeConfigure record) s else discardFrame s)

/-! ### QUERY (R174) -/

/-- A time in a unit; how a part of a unit counts is left open (log 8). -/
def inUnits (f : Config.TimeField) (unit time : Nat) : Nat :=
  if time % unit ≠ 0 ∧ Config.partCounts f then time / unit + 1 else time / unit

/-- The remaining start window while AWAIT_SUPPLY holds it (R133). -/
def startWindowLeft (s : State) : Nat :=
  if s.seq.state = .awaitSupply ∧ s.seq.startWindow.isRunning then
    s.seq.startWindowLength - s.seq.startWindow.elapsed s.now
  else 0

/-- The remaining time of the shed hold timer (R165). -/
def shedHoldLeft (s : State) : Nat :=
  match s.seq.shedHold with
  | .timing since => (conf s).holdTime * Config.second - (s.now - since)
  | _ => 0

/-- The sequencer is in FALLBACK, where the window fields have their meaning (R165). -/
def inFallback (s : State) : Bool := s.seq.state == .fallback

/-- Octets 1 to 12 (R133, R165). -/
def sequencerOctets (s : State) : List Byte :=
  let hold := match s.seq.shedHold with
    | .clear => 0
    | .timing _ => 1
    | .awaitDemand => 2
  [ octet s.seq.state.code,
    octet (flagBit s.seq.runp 0 + s.seq.spd.code * 2 + flagBit s.seq.shdn 3 + flagBit s.seq.emop 4),
    octet (flagBit s.seq.lockout 0 + flagBit s.seq.occupancy 1 + flagBit s.seq.serviceSelected 2 +
      flagBit s.seq.duplicate 3 + flagBit s.seq.firstTakeover 4 + flagBit (inFallback s && s.seq.landedMark) 5 +
      flagBit s.seq.shedOwed 6 + flagBit s.seq.report.fresh 7),
    octet (hold + flagBit (inFallback s && windowOpen s) 2 + flagBit (inFallback s && firstHalfOpen s) 3) ] ++
  word16 (inUnits .startWindowLeft (100 * Config.millisecond) (startWindowLeft s)) ++
  word16 (inUnits .shedHoldLeft (100 * Config.millisecond) (shedHoldLeft s)) ++
  word16 (if inFallback s then min 65535 (inUnits .nextWindow (100 * Config.millisecond) (timeToOpening s)) else 0) ++
  [octet s.seq.report.position.code, s.seq.report.landing]

/-- Octets 13 to 20 (R133); with the record NONE its id and class are free values (log 9). -/
def standingOctets (s : State) : List Byte :=
  signed16 s.seq.commitment ++ [octet s.seq.claimClass] ++ word16 s.seq.stamp ++
  match s.seq.trip with
  | some t => [octet t.phase.code, octet t.id.val, octet t.cls]
  | none => [octet 0, Config.noTripId s.freeCount, Config.noTripClass s.freeCount]

/-- Octets 21 to 40: the admission view and the shed view (R47, R151). -/
def viewOctets (s : State) : List Byte :=
  let v := s.adm.view
  [octet v.tripId.val, octet v.outcome.code, octet ((v.step.map SpeedStep.percent).getD 0)] ++
  word16 v.mpos ++ word16 v.gneg ++ word16 v.cap ++ word16 v.stepMax ++
  [octet v.unheard, octet v.stale, octet (if v.exceeded then Reason.exceedsCapacity.code else 0)] ++
  signed32 s.adm.shedView.excess ++ [octet s.adm.shedView.size, octet (flag s.adm.shedView.own)]

/-- The in-window time (R67). -/
def inWindowTime (s : State) : Nat := min Config.inWindowLimit (s.supply.inWindowTimer.elapsed s.now)

/-- Octets 41 to 51: conditions, last line error, supply summary (R43, R78, R94). -/
def supplyOctets (s : State) : List Byte :=
  let m := s.supply
  [ octet s.adm.conditions.octet, octet s.line.lastError.code,
    octet (flagBit (m.trn == .emergency) 0 + flagBit (m.gok == .asserted) 1 + flagBit m.good 2 + flagBit m.lost 3 +
      flagBit m.settledEvac 4 + flagBit m.settledService 5 + flagBit m.holding 6),
    octet m.capCode.val, octet m.derate, octet (if configured s then m.ceff else 0) ] ++
  word16 m.capHeld ++
  [ octet m.freqClass.code, octet (min 255 (inUnits .inWindow (10 * Config.millisecond) (inWindowTime s))),
    octet (match m.settle with
      | .stopped => 0
      | .running _ => 1
      | .expired => 2) ]

/-- The code of the slot an attempt serves (R174, octet 52). -/
def MessageKind.slotCode : MessageKind → Nat
  | .release => 1
  | .claim => 2
  | .presence => 3

/-- Octets 52 to 58: contention summary and observation queue (R117, R178). -/
def contentionOctets (s : State) : List Byte :=
  let c := s.con
  let attempt := match c.attempt with
    | .none => 0
    | .waiting b => 1 * 4 + b.kind.slotCode * 16
    | .sending b => 2 * 4 + b.kind.slotCode * 16
  [octet (flagBit c.roundOpen 0 + flagBit c.spoken 1 + attempt)] ++ word16 c.key ++
  [ octet (flagBit c.releaseSlot.isSome 0 + flagBit c.superseded 1 + flagBit c.claimSlot.isSome 2 +
      flagBit c.withdrawn 3 + flagBit c.presenceDue 4 + flagBit c.remarked 5),
    octet c.failures, octet s.link.queue.length, octet (flag s.link.overrun) ]

/-- The 58 octets of the summary (R174). -/
def summaryOctets (s : State) : List Byte :=
  sequencerOctets s ++ standingOctets s ++ viewOctets s ++ supplyOctets s ++ contentionOctets s

/-- QUERY clears ATTENTION and reports the summaries (R174); a reply that used a free value moves on to fresh ones. R174 lets an event
fall between the clearing and the status octet; that both are one step here, so that the reply shows ATTENTION 0, is the model's
choice (log 46). -/
def judgeQuery (s : State) : State × Answer :=
  ({ s with
      link := { s.link with attention := false }
      freeCount := if s.seq.trip = none then s.freeCount + 1 else s.freeCount },
    .accepted (summaryOctets s))

def execQuery (s : State) : Host.Outcome State Fault Refusal := .next (takeRequest 2 true judgeQuery s)

/-! ### SENSE, CLEAR_CONDITIONS, READ_OBSERVED -/

/-- The three octets of SENSE (R175). -/
def senseOctets (s : State) : List Byte :=
  [octet s.link.reason.code, octet s.link.detail, octet s.line.lastError.code]

/-- SENSE reads the held reason, its detail and the last line error, and changes none of them (R169, R175). -/
def execSense (s : State) : Host.Outcome State Fault Refusal :=
  let s := octetsArrive s
  .next (match s.link.receiver with
    | .receiving _ => respond (.accepted (senseOctets s)) { s with link := { s.link with receiver := .idle } }
    | _ => s)

/-- CLEAR-CONDITIONS (R176): the seven flags are lowered, the last line error is NONE; the reply tells what stood before. -/
def judgeClear (s : State) : State × Answer :=
  ({ s with adm := { s.adm with conditions := {} }, line := { s.line with lastError := .none } },
    .accepted [octet s.adm.conditions.octet, octet s.line.lastError.code])

def execClearConditions (s : State) : Host.Outcome State Fault Refusal := .next (takeRequest 4 false judgeClear s)

/-- The octets of a removed entry (R179). -/
def observationOctets (remaining : Nat) (overrun : Bool) (o : Observation) : List Byte :=
  [octet remaining, octet (flagBit overrun 0 + flagBit o.own 1), octet (o.kind.code * 16 + o.cls * 2),
    octet o.station, o.tag] ++ signed16 o.draw ++ word16 o.stamp ++ word16 (o.start.getD 0)

/-- READ-OBSERVED removes the oldest entry; a removal that empties the queue clears overrun after the reply is formed
(R178, R179). -/
def judgeReadObserved (s : State) : State × Answer :=
  match s.link.queue with
  | [] => (s, .accepted [octet 0, octet (flag s.link.overrun)])
  | o :: rest =>
    ({ s with link := { s.link with queue := rest, overrun := if rest = [] then false else s.link.overrun } },
      .accepted (observationOctets rest.length s.link.overrun o))

def execReadObserved (s : State) : Host.Outcome State Fault Refusal := .next (takeRequest 5 false judgeReadObserved s)

/-! ### READ_STATION (R35, R36, R180) -/

/-- Octet 13 and the demand of a standing (R180). -/
def standingFlags (selected lockout shedPending : Bool) (demand : Option Int) : List Byte :=
  octet (flagBit selected 0 + flagBit lockout 1 + flagBit shedPending 2 + flagBit demand.isSome 3) ::
    signed16 (demand.getD 0)

/-- The 17 octets for the own station (R35, R180). -/
def ownStanding (s : State) : List Byte :=
  [octet 3] ++ signed16 s.seq.commitment ++ [octet s.seq.claimClass] ++ word16 s.seq.stamp ++
  [octet (orderPosition s.station (restorationOrder s))] ++ word16 (conf s).dmax ++ word16 (conf s).gmax ++
  [octet s.seq.state.code] ++
  standingFlags s.seq.serviceSelected s.seq.lockout (s.seq.state == .shedPending) s.adm.ownDemand ++ word16 0

/-- The age of a record (R22), in the unit of R180. -/
def ageOctets (s : State) (r : StationRecord) : List Byte :=
  word16 (min 65535 (inUnits .recordAge (10 * Config.millisecond) (s.now - r.heard)))

/-- The 17 octets for a station with a record (R35, R180). -/
def recordStanding (s : State) (r : StationRecord) : List Byte :=
  [octet (if r.fresh then 1 else 2)] ++ signed16 r.committed ++ [octet r.cls] ++ word16 r.stamp ++
  [octet (orderPosition r.station (restorationOrder s))] ++ word16 r.dmax ++ word16 r.gmax ++
  [octet ((r.summary.map SeqState.code).getD 0)] ++
  standingFlags r.serviceSelected r.lockout r.shedPending r.demand ++ ageOctets s r

/-- The 17 octets for an unheard station (R35, R180). -/
def unheardStanding : List Byte := List.replicate 17 0

/-- The reply for a station from 1 to 62 (R35). -/
def standingOf (s : State) (station : Nat) : List Byte :=
  if station = s.station then ownStanding s
  else match findRecord s.roster.records station with
    | some r => recordStanding s r
    | none => unheardStanding

/-- The reply for station 0: the roster summary and the restoration order (R36, R180). -/
def rosterSummary (s : State) : List Byte :=
  let order := restorationOrder s
  let demand := s.roster.largestDemand
  [octet (flag s.roster.isOpen), octet (conf s).census, octet s.roster.count, octet s.roster.freshCount,
    octet s.roster.staleCount, octet (unheardCount s)] ++
  word16 s.roster.mark ++ word16 (nextStamp s.roster.mark) ++ [octet (flag demand.isSome)] ++
  signed16 (demand.getD 0) ++ [octet order.length] ++ order.map fun e => octet e.station

/-- READ-STATION (R35, R36): 63 to 255 are refused; the roster is unchanged. -/
def judgeReadStation (station : Byte) (s : State) : State × Answer :=
  if 62 < station.toNat then (s, .check .badField 1)
  else if station.toNat = 0 then (s, .accepted (rosterSummary s))
  else (s, .accepted (standingOf s station.toNat))

def execReadStation (station : Byte) (s : State) : Host.Outcome State Fault Refusal :=
  .next (takeRequest 6 false (judgeReadStation station) s)

/-! ### Frames that are no request, and the end of a reply (R167, R168) -/

/-- An unknown request code in an otherwise good frame: CHECK BAD_FIELD, detail 0, in every state (R167, log 11). -/
def execUnknownRequestCode (_code : Byte) (_fields : List Byte) (s : State) : Host.Outcome State Fault Refusal :=
  .next (takeRequest 0 true (fun s => (s, .check .badField 0)) s)

/-- A bad frame is discarded without a reply and leaves the held reason; a length above 42 leaves the receiver DISCARDING
(R167). -/
def execRequestDiscarded (cause : DiscardCause) (s : State) : Host.Outcome State Fault Refusal :=
  .next (if cause = .lengthAbove42 then loseRequest (octetsArrive s) else discardFrame s)

/-- A request begins and 10 ms pass in which no further octet of it does: the partial request is discarded, and after those 10 ms
of quiet the receiver is IDLE whatever it was (R167, log 22). -/
def execRequestGapExpiry (s : State) : Host.Outcome State Fault Refusal := .next (linkQuiet (octetsArrive s))

/-- The link has been quiet for 10 ms in DISCARDING: IDLE (R167). -/
def execDiscardQuietExpiry (s : State) : Host.Outcome State Fault Refusal :=
  match s.link.receiver with
  | .discarding _ => .next (linkQuiet s)
  | _ => .next s

/-- The last octet of a reply has been sent: none is outstanding (R168). -/
def execReplySent (s : State) : Host.Outcome State Fault Refusal :=
  match s.link.reply with
  | .sending _ => .next { s with link := { s.link with reply := .none } }
  | _ => .next s

end Sys2Proof.Machine
end

