-- ==== Sys2Proof/Machine/Requests.lean ====
section
/-!
DEFINITION. The requests that act on the car: CAR_REPORT, TRIP_REQUEST, TRIP_CANCEL, TRIP_END, SERVICE_SELECT and CALL_EVENT
(R125, R138, R141, R144, R149, R150, R160 to R162).
-/

namespace Sys2Proof.Machine

/-- A request that ends with the state code in its reply (R171). -/
def acceptWithState (s : State) : State × Answer := (s, .accepted (stateData s))

/-- A request refused: nothing of it acts. -/
def refuse (reason : Reason) (detail : Nat) (s : State) : State × Answer := (s, .check reason detail)

/-! ### CAR_REPORT -/

/-- The first field of a CAR-REPORT that is not as R125 allows. -/
def carReportBadField (position occupancy reserved : Byte) : Option Nat :=
  if positionOf position = none then some 1
  else if 1 < occupancy.toNat then some 3
  else if reserved ≠ 0 then some 4
  else none

/-- A report of an occupied car sets the flag and starts the hold; one of an empty car leaves both (R126). -/
def takeOccupancy (occupied : Bool) (s : State) : State :=
  if occupied then
    followOccupancy { s with seq := { s.seq with occupancy := true, occupancyHold := .running s.now } }
  else s

/-- What a report does in FALLBACK (R160, R161). -/
def reportInFallback (p : Position) (s : State) : State :=
  if p = .atLanding then
    if s.seq.landedMark = false ∧ s.seq.trip = none then
      let s := createTrip .evacuation (evacClass s) .fallback (wakeFigures (conf s)) s
      startIfOpen { s with seq := { s.seq with landedMark := true } }
    else s
  else { s with seq := { s.seq with landedMark := false } }

/-- An accepted report acts on the report record, on occupancy, on lockout, then on the state (R125). -/
def takeReport (p : Position) (landing : Byte) (occupied : Bool) (s : State) : State :=
  let s := { s with seq := { s.seq with report := { position := p, landing := landing, fresh := true } } }
  let s := lockoutBy p (takeOccupancy occupied s)
  match s.seq.state with
  | .assess => actOnPosition s
  | .evacWait => if s.seq.trip = none then actOnPosition s else s
  | .fallback => reportInFallback p s
  | _ => s

/-- CAR-REPORT judged and acted on (R125). -/
def judgeReport (position landing occupancy reserved : Byte) (s : State) : State × Answer :=
  match carReportBadField position occupancy reserved, positionOf position with
  | some k, _ => refuse .badField k s
  | none, some p => acceptWithState (takeReport p landing (occupancy == 1) s)
  | none, none => refuse .badField 1 s

def execCarReport (position landing occupancy reserved : Byte) (s : State) : Host.Outcome State Fault Refusal :=
  .next (takeRequest 7 false (judgeReport position landing occupancy reserved) s)

/-! ### TRIP_REQUEST -/

/-- Why the sequencer's state or trip record does not take a TRIP-REQUEST (R138, checks 1 to 3; R160; R162); none when the
fields are to be judged. -/
def tripRequestRefusal (s : State) : Option Answer :=
  let active : Answer := .check .tripActive (tripIdInHand s).val
  let byRecord (none_ : Option Answer) : Option Answer :=
    match s.seq.trip with
    | none => none_
    | some t => if t.phase = .ending then some .busy else some active
  match s.seq.state with
  | .evacWait => byRecord none
  | .serviceIdle => byRecord (if s.seq.lockout then some (.check .positionLost 0) else none)
  | .fallback => if s.seq.trip = none then none else some active
  | .evacRun | .serviceWait | .serviceRun | .shedPending => some active
  | .isolated => some (.check .isolated 0)
  | .unconfigured | .dormant | .awaitSupply | .noSupply | .joining | .assess | .landed | .parked =>
    some (.check .wrongState s.seq.state.code)

/-- The load after an overload's clamp (R4). -/
def clampedLoad (load : Byte) : Nat := min 125 load.toNat

/-- An accepted TRIP-REQUEST (R139, R160): the record is created with its figures and, but in FALLBACK, its claim posted. -/
def acceptTrip (dir : Direction) (load : Byte) (s : State) : State × Answer :=
  let figures := runFigures (conf s) (signedDemand (conf s).bal (clampedLoad load) dir)
  let s :=
    match s.seq.state with
    | .serviceIdle =>
      let s := postClaim (createTrip .service (serviceClass s) .serviceIdle figures s)
      enterServiceWait { s with seq := { s.seq with idleTimer := .stopped, agingTimer := .running s.now } }
    | .fallback => createTrip .evacuation (evacClass s) .fallback figures s
    | _ => postClaim (createTrip .evacuation (evacClass s) .evacWait figures s)
  let id := s.seq.lastTripId.val
  let cls := (s.seq.trip.map Trip.cls).getD 0
  let s := if s.seq.state = .fallback then startIfOpen s else s
  (s, .accepted [octet id, octet cls, octet s.seq.state.code])

/-- TRIP-REQUEST judged in the order of R138: state, record, lockout, direction, load, reserved field. -/
def judgeTripRequest (direction load reserved : Byte) (s : State) : State × Answer :=
  match tripRequestRefusal s with
  | some a => (s, a)
  | none =>
    match directionOf direction with
    | none => refuse .badField 1 s
    | some dir =>
      let overload := decide (125 < load.toNat)
      let s := raiseIf overload .range s
      if overload && (conf s).unmaskRange then refuse .badField 2 s
      else if reserved ≠ 0 then refuse .badField 3 s
      else acceptTrip dir load s

def execTripRequest (direction load reserved : Byte) (s : State) : Host.Outcome State Fault Refusal :=
  .next (takeRequest 9 false (judgeTripRequest direction load reserved) s)

/-! ### TRIP_CANCEL -/

/-- A cancel of a record whose claim is not SENDING (R144). -/
def cancelNow (t : Trip) (s : State) : State := returnToOrigin t.origin (endTrip (withdrawClaim s))

/-- A cancel that finds the CLAIM SENDING (R144): the record keeps the standing then held, the mark is set, the claim is
withdrawn. -/
def cancelSending (t : Trip) (s : State) : State :=
  withdrawClaim { s with seq := { s.seq with
    trip := some { t with cancel := true, prior := some { draw := s.seq.commitment, stamp := s.seq.stamp } } } }

/-- TRIP-CANCEL in FALLBACK (R160). -/
def cancelInFallback (tripId : Byte) (s : State) : State × Answer :=
  match s.seq.trip with
  | none => refuse .noTrip tripId.toNat s
  | some t =>
    if t.phase = .running then refuse .tripActive t.id.val s
    else if t.phase = .pending ∧ namesTrip tripId t.id then acceptWithState (endTrip s)
    else refuse .noTrip tripId.toNat s

/-- TRIP-CANCEL by the record as it stands, in the order of the table of R144. -/
def cancelByRecord (tripId : Byte) (s : State) : State × Answer :=
  match s.seq.trip with
  | none => refuse .noTrip tripId.toNat s
  | some t =>
    if t.phase = .ending ∨ namesTrip tripId t.id = false then refuse .noTrip tripId.toNat s
    else if t.phase = .running then refuse .tripActive t.id.val s
    else if t.phase = .armed ∧ s.con.attempt.isSending .claim then (cancelSending t s, .held t.id)
    else acceptWithState (cancelNow t s)

/-- The trip named, when its CLAIM has completed at this very instant (R115). -/
def completedNow (tripId : Byte) (s : State) : Option Trip :=
  match s.seq.lastClaim with
  | some c => if c.instant = s.now ∧ namesTrip tripId c.trip.id then some c.trip else none
  | none => none

/-- The completion of this trip's CLAIM stands as it left it: its run is RUNNING, or its wake stands in its state (R135, R136). -/
def completionStands (t : Trip) (s : State) : Bool :=
  match t.figures with
  | .run _ _ _ _ => (s.seq.trip.map fun x => (x.id, x.phase)) == some (t.id, .running)
  | .wake _ => s.seq.trip == none && s.seq.state == (match t.purpose with
    | .evacuation => .landed
    | .service => .serviceIdle)

/-- The trip whose CLAIM has just completed ends as one cancelled before its completion does (R144): a run stops, no timer of the
state entered goes on, and a run asked to shed owes its shed (R155). -/
def cancelCompleted (t : Trip) (s : State) : State :=
  let owed := s.seq.shedOwed || s.seq.state == .shedPending
  let s := match t.figures with
    | .run _ _ _ _ => stopRun s
    | .wake _ => s
  endCancelled true t { s with seq := { s.seq with
    runTimer := .stopped, dwellTimer := .stopped, idleTimer := .stopped, shedOwed := owed } }

/-- A TRIP-CANCEL taken at the instant of its CLAIM's completion, after it, is too late as one taken before it is, with the same
outcome (R115, R144, log 45); otherwise the record decides. -/
def judgeTripCancel (tripId : Byte) (s : State) : State × Answer :=
  match s.seq.state with
  | .isolated => refuse .isolated 0 s
  | .fallback => cancelInFallback tripId s
  | _ =>
    match completedNow tripId s with
    | some t =>
      if completionStands t s then (cancelCompleted t s, .check .tooLate t.id.val)
      else if s.seq.trip = none then refuse .tooLate t.id.val s
      else cancelByRecord tripId s
    | none => cancelByRecord tripId s

def execTripCancel (tripId : Byte) (s : State) : Host.Outcome State Fault Refusal :=
  .next (takeRequest 10 false (judgeTripCancel tripId) s)

/-! ### TRIP_END -/

/-- The end of a run up to the negation of RUNP: report record, lockout, run timer, RUNP and SPD (R141). -/
def stopAtEnd (p : Position) (landing : Byte) (s : State) : State :=
  let s := { s with seq := { s.seq with report := { position := p, landing := landing, fresh := true } } }
  let s := lockoutBy p s
  stopRun { s with seq := { s.seq with runTimer := .stopped } }

/-- The run's record becomes ENDING. -/
def setEnding (t : Trip) (s : State) : State := changeTrip (some { t with phase := .ending }) s

/-- The ending RELEASE to STBY and the state that purpose and position give (R141). -/
def endRun (t : Trip) (p : Position) (s : State) : State :=
  let draw := (conf s).stby
  let s := setEnding t (postRelease
    { reason := .tripEnd, tripId := t.id, draw := (draw : Int), stamp := releaseStamp draw s.seq.stamp } s)
  match t.purpose, p with
  | .evacuation, .atLanding => enterLanded s
  | .service, .atLanding => enterServiceIdle s
  | .service, .between => enterServiceIdle s
  | _, _ => enterEvacWait s

/-- The ending of a run that was asked to shed (R156). -/
def endShedRun (t : Trip) (p : Position) (s : State) : State :=
  let s := setEnding t (postShed t.id s)
  match p with
  | .atLanding => enterParked s
  | _ => goTo .evacWait s

/-- The ending of a run in FALLBACK (R161). -/
def endRunInFallback (p : Position) (s : State) : State :=
  let s := endFallbackRun s
  { s with seq := { s.seq with landedMark := p == .atLanding } }

/-- An accepted TRIP-END (R141, R156, R161). -/
def takeTripEnd (t : Trip) (p : Position) (landing : Byte) (s : State) : State :=
  let s := stopAtEnd p landing s
  match s.seq.state with
  | .fallback => endRunInFallback p s
  | .shedPending => endShedRun t p s
  | _ => endRun t p s

/-- The states in which a RUNNING record can be ended by TRIP-END (R141, R160). -/
def SeqState.takesTripEnd : SeqState → Bool
  | .evacRun | .serviceRun | .shedPending | .fallback => true
  | _ => false

/-- TRIP-END judged by the record, then by its fields (R141). -/
def judgeTripEnd (tripId position landing reserved : Byte) (s : State) : State × Answer :=
  if s.seq.state = .isolated then refuse .isolated 0 s
  else
    match s.seq.trip with
    | none => refuse .noTrip tripId.toNat s
    | some t =>
      if s.seq.state.takesTripEnd = false ∨ t.phase ≠ .running ∨ namesTrip tripId t.id = false then
        refuse .noTrip tripId.toNat s
      else
        match positionOf position with
        | none => refuse .badField 2 s
        | some p =>
          if reserved ≠ 0 then refuse .badField 4 s else acceptWithState (takeTripEnd t p landing s)

def execTripEnd (tripId position landing reserved : Byte) (s : State) : Host.Outcome State Fault Refusal :=
  .next (takeRequest 11 false (judgeTripEnd tripId position landing reserved) s)

/-! ### Wakes, SERVICE_SELECT and CALL_EVENT -/

/-- The shed hold is running: TIMING or AWAIT_DEMAND (R157). -/
def ShedHold.isRunning (h : ShedHold) : Bool := h != .clear

/-- Why a wake from PARKED is refused (R146): lockout, then the shed hold, then an ENDING record. -/
def wakeRefusal (s : State) : Option Answer :=
  if s.seq.lockout then some (.check .positionLost 0)
  else if s.seq.shedHold.isRunning then some (.check .shedHold 0)
  else if tripIn .ending s then some .busy
  else none

/-- A wake that passes (R146): a WAKE record of purpose SERVICE, its claim posted, the aging timer started, SERVICE_WAIT. -/
def wakeCar (s : State) : State :=
  let s := postClaim (createTrip .service (serviceClass s) .parked (wakeFigures (conf s)) s)
  enterServiceWait { s with seq := { s.seq with agingTimer := .running s.now } }

/-- Write the service-selected flag; a change marks PRESENCE due in a driving state (R149). -/
def setSelected (b : Bool) (s : State) : State :=
  if s.seq.serviceSelected = b then s else markPresence { s with seq := { s.seq with serviceSelected := b } }

/-- SERVICE-SELECT judged in the order of R149. -/
def judgeServiceSelect (value reserved : Byte) (s : State) : State × Answer :=
  if s.seq.state = .isolated then refuse .isolated 0 s
  else if s.seq.state = .fallback then refuse .fallback 0 s
  else if 1 < value.toNat then refuse .badField 1 s
  else if reserved ≠ 0 then refuse .badField 2 s
  else if value = 0 then acceptWithState (setSelected false s)
  else if s.seq.lockout then refuse .positionLost 0 s
  else if s.seq.state = .parked then
    match wakeRefusal s with
    | some a => (s, a)
    | none => acceptWithState (wakeCar (setSelected true s))
  else acceptWithState (setSelected true s)

def execServiceSelect (value reserved : Byte) (s : State) : Host.Outcome State Fault Refusal :=
  .next (takeRequest 12 false (judgeServiceSelect value reserved) s)

/-- CALL-EVENT judged and acted on by state (R150): the source, the reserved field, then the wake checks. -/
def judgeCallEvent (source reserved : Byte) (s : State) : State × Answer :=
  if source.toNat = 0 ∨ 4 < source.toNat then refuse .badField 1 s
  else if reserved ≠ 0 then refuse .badField 2 s
  else if s.seq.state = .serviceIdle ∧ sourceInMask source.toNat (conf s).idleRestartMask then
    acceptWithState { s with seq := { s.seq with idleTimer := .running s.now } }
  else if s.seq.state = .parked ∧ sourceInMask source.toNat (conf s).wakeMask then
    match wakeRefusal s with
    | some a => (s, a)
    | none => acceptWithState (wakeCar s)
  else acceptWithState s

def execCallEvent (source reserved : Byte) (s : State) : Host.Outcome State Fault Refusal :=
  .next (takeRequest 13 false (judgeCallEvent source reserved) s)

end Sys2Proof.Machine
end

