-- ==== Sys2Proof/Machine/Resets.lean ====
section
/-!
DEFINITION. COLD_RESET (R132, R77, R98, R99) and RESTART (R131, R181).
-/

namespace Sys2Proof.Machine

/-- The supply monitor at either reset: the debounced readings are the raw ones, everything else as after cold reset (R77). -/
def resetSupply (p : Pins) : SupplyMonitor := { trn := p.trn, gok := p.gok, capCode := p.cap }

/-- The sequencer after a cold reset: RUNP and SPD from the debounced TRN (R120, R132). -/
def coldSequencer (trn : TrnReading) : Sequencer :=
  match trn with
  | .normal => { runp := true, spd := .p100 }
  | .emergency => { runp := false, spd := .p25 }

/-- The state after a cold reset (R132): the configuration is discarded, the straps are sampled, every unit takes its cold-reset
state. The pins, the clock and the waiting commands are not the part's. -/
def coldResetState (straps : BitVec 6) (s : State) : State :=
  { now := s.now, pending := s.pending, freeCount := s.freeCount, pins := s.pins, station := straps.toNat,
    config := none, seq := coldSequencer s.pins.trn, adm := {}, supply := resetSupply s.pins, roster := {},
    line := s.line.reset s.now, con := {}, link := {} }

/-- A cold reset (R132). Until RESET is released RUNP is negated, whatever TRN reads, with SPD at code 0 as always beside it (R136);
at the release RUNP and SPD follow TRN (log 21). -/
def execColdReset (pins : ResetPins) (s : State) : Host.Outcome State Fault Refusal :=
  let s := coldResetState pins.straps { s with pins := { s.pins with reset := pins.reset } }
  .next (match pins.reset with
    | .asserted => stopRun s
    | .released => s)

/-- The blocks at their RESTART values, before the state is entered (R131, R181): configuration, filters, station number and
ATTENTION are kept. -/
def restartValues (s : State) : State :=
  let s := { s with
    seq := {}, adm := {}, supply := resetSupply s.pins, roster := {}, line := s.line.reset s.now, con := {}
    link := { s.link with queue := [], overrun := false, reason := .none, detail := 0 } }
  { s with supply := { s.supply with capHeld := capacityOf s } }

/-- RESTART (R131): DORMANT while TRN reads normal, else AWAIT_SUPPLY with 60 s and the session origin now. -/
def restartState (s : State) : State :=
  let s := restartValues s
  match s.supply.trn with
  | .normal => goTo .dormant s
  | .emergency =>
    enterAwaitSupply Config.firstWindow { s with seq := { s.seq with
      sessionOrigin := some s.now, firstTakeover := false } }

/-- RESTART as a request: its reply reports the state entered, with ATTENTION (R131, R181). -/
def judgeRestart (s : State) : State × Answer :=
  let s := restartState s
  (s, .accepted (stateData s))

def execRestart (s : State) : Host.Outcome State Fault Refusal := .next (takeRequest 8 false judgeRestart s)

end Sys2Proof.Machine
end

