-- ==== Sys2Proof/Machine/SupplyEvents.lean ====
section
/-!
DEFINITION. The commands of the supply monitor: the contacts and their debounce expiries (R61 to R64), the pulse and its
absence (R65, R66), and the monitor's timers (R67, R71 to R73).
-/

namespace Sys2Proof.Machine

/-- The TRN contact reads a level (R61): while it differs from the debounced reading the debounce timer runs. While RESET is held
nothing is timed: the debounced reading is taken from the contact when the reset ends. -/
def execTrnChange (reading : TrnReading) (s : State) : Host.Outcome State Fault Refusal :=
  let timer :=
    if inReset s ∨ reading = s.supply.trn then .stopped
    else if s.supply.trnTimer.isRunning then s.supply.trnTimer
    else .running s.now
  .next { s with pins := { s.pins with trn := reading }, supply := { s.supply with trnTimer := timer } }

/-- The TRN debounce timer expires (R61): the debounced reading takes the raw one, and TAKEOVER or RETRANSFER is raised
(R62). -/
def execTrnDebounceExpiry (s : State) : Host.Outcome State Fault Refusal :=
  if s.supply.trnTimer.isRunning then
    let s := passToExpiry s.supply.trnTimer Config.trnDebounce s
    let old := s.supply.trn
    let s := { s with supply := { s.supply with trn := s.pins.trn, trnTimer := .stopped } }
    .next (match old, s.pins.trn with
      | .normal, .emergency => onTakeover s
      | .emergency, .normal => onRetransfer s
      | _, _ => s)
  else .next s

/-- The GOK contact reads a level (R63); while RESET is held nothing is timed. -/
def execGokChange (reading : GokReading) (s : State) : Host.Outcome State Fault Refusal :=
  let timer :=
    if inReset s ∨ reading = s.supply.gok then .stopped
    else if s.supply.gokTimer.isRunning then s.supply.gokTimer
    else .running s.now
  .next { s with pins := { s.pins with gok := reading }, supply := { s.supply with gokTimer := timer } }

/-- The GOK debounce timer expires (R63): the debounced reading changes, which may raise supply good or supply lost (R68,
R69). -/
def execGokDebounceExpiry (s : State) : Host.Outcome State Fault Refusal :=
  if s.supply.gokTimer.isRunning then
    let s := passToExpiry s.supply.gokTimer Config.contactDebounce s
    let before := s.supply
    .next (supplyEdge before { s with supply := { s.supply with gok := s.pins.gok, gokTimer := .stopped } })
  else .next s

/-- The CAP lines read a code (R64): the candidate follows it as the table of R64 gives; while RESET is held there is none. -/
def execCapChange (code : Fin 8) (s : State) : Host.Outcome State Fault Refusal :=
  let m := s.supply
  let m :=
    if inReset s ∨ code = m.capCode then { m with candidate := none, capTimer := .stopped }
    else if m.candidate = some code then m
    else { m with candidate := some code, capTimer := .running s.now }
  .next { s with pins := { s.pins with cap := code }, supply := m }

/-- The CAP debounce timer expires (R64): the candidate becomes C and Cap is formed anew (R70). -/
def execCapDebounceExpiry (s : State) : Host.Outcome State Fault Refusal :=
  match s.supply.candidate with
  | some code =>
    let s := passToExpiry s.supply.capTimer Config.contactDebounce s
    .next (reformCap { s with supply := { s.supply with capCode := code, candidate := none, capTimer := .stopped } })
  | none => .next s

/-- An FSN pulse that comes `period` microseconds after the pulse before it (R65, R66, log 26). In a train it closes a period
and classifies it; a pulse later than 100 ms finds the train ended; with no train it begins one. While RESET is held no train
begins: the first pulse after the reset does that (R66). -/
def execFsnPulse (period : Nat) (s : State) : Host.Outcome State Fault Refusal :=
  if inReset s then .next s else
  match s.supply.train with
  | none => .next (beginTrain s)
  | some last =>
    if Config.absenceTime < period then
      .next (beginTrain (passTo (last + period) (becomeAbsent (passTo (last + Config.absenceTime) s))))
    else
      .next (becomeClass (classifyPeriod (nominalFrequency s) period) (beginTrain (passTo (last + period) s)))

/-- The absence timer reaches 100 ms (R66): the train ends and the class becomes ABSENT, which may be SUPPLY_LOSS (R69). -/
def execAbsenceExpiry (s : State) : Host.Outcome State Fault Refusal :=
  if s.supply.absenceTimer.isRunning then
    .next (becomeAbsent (passToExpiry s.supply.absenceTimer Config.absenceTime s))
  else .next s

/-- The in-window time reaches 0.5 s (R67): the settled indications may rise, with a notice (R74, R75). -/
def execInWindowHalfSecond (s : State) : Host.Outcome State Fault Refusal :=
  if s.supply.inWindowTimer.isRunning && !s.supply.inWindowHalf then
    let s := passToExpiry s.supply.inWindowTimer Config.inWindowSettled s
    let before := s.supply
    .next (noticeAfter before { s with supply := { s.supply with inWindowHalf := true } })
  else .next s

/-- The UNDER timer reaches 2 s (R72): with the episode mark clear, K rises by 1, at most to 7, and the mark is set; Cap is
formed anew (R70). -/
def execUnderTimerExpiry (s : State) : Host.Outcome State Fault Refusal :=
  if s.supply.underTimer.isRunning then
    let s := passToExpiry s.supply.underTimer Config.underTime s
    let s := { s with supply := { s.supply with underTimer := .stopped } }
    if s.supply.episodeMark then .next s
    else
      .next (reformCap { s with supply := { s.supply with
        derate := min 7 (s.supply.derate + 1), episodeMark := true } })
  else .next s

/-- The capacity hold timer expires (R71): the hold is CLEAR and settled for service may rise (R74, R75). -/
def execCapacityHoldExpiry (s : State) : Host.Outcome State Fault Refusal :=
  if s.supply.holding then
    let s := passToExpiry s.supply.holdTimer ((conf s).holdTime * Config.second) s
    let before := s.supply
    .next (noticeAfter before { s with supply := { s.supply with holdTimer := .stopped } })
  else .next s

/-- The settle timer reaches the settle time (R73): it is EXPIRED and the settled indications may rise (R74, R75). -/
def execSettleTimerExpiry (s : State) : Host.Outcome State Fault Refusal :=
  match s.supply.settle with
  | .running since =>
    let s := passTo (since + (conf s).settleTime * Config.second) s
    let before := s.supply
    .next (noticeAfter before { s with supply := { s.supply with settle := .expired } })
  | _ => .next s

end Sys2Proof.Machine
end

