-- ==== Sys2Proof/Machine/TimerEvents.lean ====
section
/-!
DEFINITION. The commands of the sequencer's timers, of the aging, patience and shed hold timers, and of the fallback windows.
A command whose timer is not running has no effect: a stopped timer does not expire (00_scope, Times; log 3).
-/

namespace Sys2Proof.Machine

/-- The start window expires in AWAIT_SUPPLY (R122): NO_SUPPLY. -/
def execStartWindowExpiry (s : State) : Host.Outcome State Fault Refusal :=
  if s.seq.state = .awaitSupply ∧ s.seq.startWindow.isRunning then
    .next (enterNoSupply (passToExpiry s.seq.startWindow s.seq.startWindowLength s))
  else .next s

/-- The join time: two report intervals and one round (R124). -/
def joinTime (s : State) : Nat := 2 * ((conf s).reportInterval * 100 * Config.millisecond) + Config.roundLength

/-- The join timer expires (R124): ASSESS, acting at once on a fresh report (R127). -/
def execJoinTimerExpiry (s : State) : Host.Outcome State Fault Refusal :=
  if s.seq.state = .joining ∧ s.seq.joinTimer.isRunning then
    let s := passToExpiry s.seq.joinTimer (joinTime s) s
    .next (enterAssess { s with seq := { s.seq with joinTimer := .stopped } })
  else .next s

/-- The occupancy hold expires (R126): the flag is cleared and an evacuation trip's class becomes 2. -/
def execOccupancyHoldExpiry (s : State) : Host.Outcome State Fault Refusal :=
  if s.seq.occupancyHold.isRunning then
    let s := passToExpiry s.seq.occupancyHold Config.occupancyHoldTime s
    .next (followOccupancy { s with seq := { s.seq with occupancy := false, occupancyHold := .stopped } })
  else .next s

/-- The run limit expires outside FALLBACK (R143). -/
def overtimeRun (t : Trip) (s : State) : State :=
  let s := setLockout true (raise .overtime (stopRun s))
  let s := discardTrip s
  let draw := (conf s).stby
  let s := postRelease
    { reason := .overtime, tripId := t.id, draw := (draw : Int), stamp := releaseStamp draw s.seq.stamp } s
  enterAssess { s with seq := { s.seq with report := { s.seq.report with fresh := false } } }

/-- The run limit expires in FALLBACK (R161): the sequencer stays there. -/
def overtimeFallback (s : State) : State := setLockout true (raise .overtime (endFallbackRun s))

/-- The run timer reaches the run limit while the record is RUNNING (R143, R161). -/
def execRunLimitExpiry (s : State) : Host.Outcome State Fault Refusal :=
  match s.seq.trip with
  | some t =>
    if t.phase = .running ∧ s.seq.runTimer.isRunning then
      let s := passToExpiry s.seq.runTimer ((conf s).runLimit * Config.second) s
      .next (if s.seq.state = .fallback then overtimeFallback s else overtimeRun t s)
    else .next s
  | none => .next s

/-- Park: a PARK RELEASE to 0 is posted, with the last trip id, and PARKED entered (R145, R147, R119). -/
def parkCar (s : State) : State :=
  enterParked (postRelease { reason := .park, tripId := s.seq.lastTripId, draw := 0, stamp := 0 } s)

/-- The landing dwell expires (R145): service for a selected car that is not locked out, PARKED for every other. -/
def execLandingDwellExpiry (s : State) : Host.Outcome State Fault Refusal :=
  if s.seq.state = .landed ∧ s.seq.dwellTimer.isRunning then
    let s := passToExpiry s.seq.dwellTimer ((conf s).dwell * Config.second) s
    let s := { s with seq := { s.seq with dwellTimer := .stopped } }
    .next (if s.seq.serviceSelected && !s.seq.lockout then enterServiceIdle s else parkCar s)
  else .next s

/-- The idle timer expires in SERVICE_IDLE (R147): the car parks. -/
def execIdleTimerExpiry (s : State) : Host.Outcome State Fault Refusal :=
  if s.seq.state = .serviceIdle ∧ s.seq.idleTimer.isRunning then
    let s := passToExpiry s.seq.idleTimer ((conf s).idleTime * Config.second) s
    .next (parkCar { s with seq := { s.seq with idleTimer := .stopped } })
  else .next s

/-- The aging time expires (R55): the class of a trip whose CLAIM has not completed becomes 3. -/
def execAgingExpiry (s : State) : Host.Outcome State Fault Refusal :=
  if s.seq.agingTimer.isRunning then
    let s := passToExpiry s.seq.agingTimer ((conf s).agingTime * Config.second) s
    let s := { s with seq := { s.seq with agingTimer := .stopped } }
    .next (match s.seq.trip with
      | some t =>
        if (t.phase = .pending ∨ t.phase = .armed) ∧ 4 ≤ t.cls then changeTrip (some { t with cls := 3 }) s else s
      | none => s)
  else .next s

/-- Publish the trip's evac demand (R58): present, PRESENCE due, ATTENTION; once for each trip record. -/
def publishDemand (s : State) : State :=
  match s.seq.trip, s.adm.ownDemand with
  | some t, none => attend (markPresence { s with adm := { s.adm with ownDemand := some t.figures.floorDraw } })
  | _, _ => s

/-- The evac patience expires (R58). -/
def execPatienceExpiry (s : State) : Host.Outcome State Fault Refusal :=
  match s.adm.patience with
  | .running since =>
    let s := passTo (since + (conf s).patience * Config.second) s
    .next (publishDemand { s with adm := { s.adm with patience := .expired } })
  | _ => .next s

/-- The shed hold timer reaches the capacity hold time (R157): CLEAR, or AWAIT_DEMAND while a demand is heard. -/
def execShedHoldExpiry (s : State) : Host.Outcome State Fault Refusal :=
  match s.seq.shedHold with
  | .timing since =>
    let s := passTo (since + (conf s).holdTime * Config.second) s
    let hold := if s.roster.largestDemand = none then ShedHold.clear else ShedHold.awaitDemand
    .next { s with seq := { s.seq with shedHold := hold } }
  | _ => .next s

/-- A PENDING record starts in FALLBACK, now in the first half of the own window or at the next opening of it (R161). Taken at the
very instant at which the first half closes, it is the start of a creation that came before the close (log 43). -/
def execFallbackTripStart (s : State) : Host.Outcome State Fault Refusal :=
  if s.seq.state = .fallback ∧ tripIn .pending s then
    .next (startFallbackTrip (if firstHalfOpen s || firstHalfCloses s then s else passTo (s.now + timeToOpening s) s))
  else .next s

/-- The time from an open own window to its close. -/
def timeToClose (s : State) : Nat := s.station * windowTime s - windowOffset s

/-- The own window closes (R161): a STBY commitment held in FALLBACK becomes 0, with its class and stamp. -/
def execOwnWindowClose (s : State) : Host.Outcome State Fault Refusal :=
  if s.seq.state = .fallback then
    let s := if windowOpen s then passTo (s.now + timeToClose s) s else s
    .next (if tripIn .running s then s else zeroStanding s)
  else .next s

end Sys2Proof.Machine
end

