-- ==== Sys2Proof/Machine/Dispatch.lean ====
section
/-! DEFINITION. The meaning of each command: one arm for each constructor of Instr, in the table's order. -/

namespace Sys2Proof.Machine

def exec (i : Instr) (s : State) : Host.Outcome State Fault Refusal :=
  match i with
  | .coldReset pins => Sys2Proof.Machine.execColdReset pins s
  | .configure record => Sys2Proof.Machine.execConfigure record s
  | .query => Sys2Proof.Machine.execQuery s
  | .sense => Sys2Proof.Machine.execSense s
  | .clearConditions => Sys2Proof.Machine.execClearConditions s
  | .readObserved => Sys2Proof.Machine.execReadObserved s
  | .readStation station => Sys2Proof.Machine.execReadStation station s
  | .carReport position landing occupancy reserved => Sys2Proof.Machine.execCarReport position landing occupancy reserved s
  | .restart => Sys2Proof.Machine.execRestart s
  | .tripRequest direction load reserved => Sys2Proof.Machine.execTripRequest direction load reserved s
  | .tripCancel tripId => Sys2Proof.Machine.execTripCancel tripId s
  | .tripEnd tripId position landing reserved => Sys2Proof.Machine.execTripEnd tripId position landing reserved s
  | .serviceSelect value reserved => Sys2Proof.Machine.execServiceSelect value reserved s
  | .callEvent source reserved => Sys2Proof.Machine.execCallEvent source reserved s
  | .unknownRequestCode code fields => Sys2Proof.Machine.execUnknownRequestCode code fields s
  | .requestDiscarded cause => Sys2Proof.Machine.execRequestDiscarded cause s
  | .requestGapExpiry => Sys2Proof.Machine.execRequestGapExpiry s
  | .discardQuietExpiry => Sys2Proof.Machine.execDiscardQuietExpiry s
  | .replySent => Sys2Proof.Machine.execReplySent s
  | .trnChange reading => Sys2Proof.Machine.execTrnChange reading s
  | .trnDebounceExpiry => Sys2Proof.Machine.execTrnDebounceExpiry s
  | .gokChange reading => Sys2Proof.Machine.execGokChange reading s
  | .gokDebounceExpiry => Sys2Proof.Machine.execGokDebounceExpiry s
  | .capChange code => Sys2Proof.Machine.execCapChange code s
  | .capDebounceExpiry => Sys2Proof.Machine.execCapDebounceExpiry s
  | .fsnPulse period => Sys2Proof.Machine.execFsnPulse period s
  | .absenceExpiry => Sys2Proof.Machine.execAbsenceExpiry s
  | .inWindowHalfSecond => Sys2Proof.Machine.execInWindowHalfSecond s
  | .underTimerExpiry => Sys2Proof.Machine.execUnderTimerExpiry s
  | .capacityHoldExpiry => Sys2Proof.Machine.execCapacityHoldExpiry s
  | .settleTimerExpiry => Sys2Proof.Machine.execSettleTimerExpiry s
  | .lineActivityStart => Sys2Proof.Machine.execLineActivityStart s
  | .longDominantExpiry => Sys2Proof.Machine.execLongDominantExpiry s
  | .endOfActivity changes => Sys2Proof.Machine.execEndOfActivity changes s
  | .roundClose => Sys2Proof.Machine.execRoundClose s
  | .slotExpiry => Sys2Proof.Machine.execSlotExpiry s
  | .readbackMismatch => Sys2Proof.Machine.execReadbackMismatch s
  | .attemptJoined => Sys2Proof.Machine.execAttemptJoined s
  | .presenceDueExpiry => Sys2Proof.Machine.execPresenceDueExpiry s
  | .recordStale station => Sys2Proof.Machine.execRecordStale station s
  | .startWindowExpiry => Sys2Proof.Machine.execStartWindowExpiry s
  | .joinTimerExpiry => Sys2Proof.Machine.execJoinTimerExpiry s
  | .occupancyHoldExpiry => Sys2Proof.Machine.execOccupancyHoldExpiry s
  | .runLimitExpiry => Sys2Proof.Machine.execRunLimitExpiry s
  | .landingDwellExpiry => Sys2Proof.Machine.execLandingDwellExpiry s
  | .idleTimerExpiry => Sys2Proof.Machine.execIdleTimerExpiry s
  | .agingExpiry => Sys2Proof.Machine.execAgingExpiry s
  | .patienceExpiry => Sys2Proof.Machine.execPatienceExpiry s
  | .shedHoldExpiry => Sys2Proof.Machine.execShedHoldExpiry s
  | .fallbackTripStart => Sys2Proof.Machine.execFallbackTripStart s
  | .ownWindowClose => Sys2Proof.Machine.execOwnWindowClose s
  | .firstBaseGap => Sys2Proof.Machine.execFirstBaseGap s

end Sys2Proof.Machine
end

