-- ==== Sys2Proof/Safety.lean ====
section
/-!
DEFINITION. What a sound state is, in the terms the statements use: the laws and tables that the spec gives the whole block
(R18, R30, R32, R101, R102, R107, R116, R118, R136, R178), the restoration order, admission and shedding in the rules' own
terms (R34, R49, R51, R151 to R157), the checks of R92 and the record of R173 likewise, the words for a request taken and answered
(R168, R169), for observation (R177, R178), and for what several commands do alike: a reference point (R100), an abandoned attempt
(R110), an entry to JOINING (R124), a departure (R129, R164).
-/

namespace Sys2Proof.Machine

/-! ### The whole block -/

/-- Nothing is on its way out: no attempt, empty slots, no PRESENCE due, the transmitter idle (R116). -/
abbrev OutboundClear (s : State) : Prop :=
  s.con.attempt = .none ∧ s.con.releaseSlot = none ∧ s.con.claimSlot = none ∧ s.con.presenceDue = false ∧
    s.line.transmitter = none

/-- The states in which a run may be made: a RUNNING record stands in no other (R118, R136, R161). -/
def SeqState.runs : SeqState → Bool
  | .evacRun | .serviceRun | .shedPending | .fallback => true
  | _ => false

/-- The states that hold no trip record: outside a session, before ASSESS, and ISOLATED (R120, R124, R129, R130, R134). -/
def SeqState.tripless : SeqState → Bool
  | .unconfigured | .dormant | .awaitSupply | .noSupply | .joining | .isolated => true
  | _ => false

/-- The states in which the roster is OPEN (R118); in ISOLATED it stays as it stood (R19, R130). -/
def SeqState.opensRoster (st : SeqState) : Bool := st.driving || st == .fallback

/-- The block while RESET is held (R132): every unit at its cold-reset value with RUNP negated, nothing timed, taken or read. -/
abbrev HeldInReset (s : State) : Prop :=
  s.config = none ∧ s.seq = { runp := false, spd := .p25 } ∧ s.adm = {} ∧ s.roster = {} ∧ s.con = {} ∧ s.link = {} ∧
    s.supply = { trn := s.supply.trn, gok := s.supply.gok, capCode := s.supply.capCode } ∧
    s.line.active = false ∧ s.line.awaitingGap = true ∧ s.line.transmitter = none ∧ s.line.longTimer = .stopped ∧
    s.line.octets = [] ∧ s.line.endReference = none ∧ s.line.lastError = .none

/-- The table of R118 and the laws of R136, column by column, with what they need of the trip record, the outbound state and
TRN. Of the own commitment the table's zeros outside the driving states are kept; its other values wait for messages. -/
structure Sound (s : State) : Prop where
  /-- outside the driving states nothing is on its way out (R107, R116) -/
  silent : s.seq.state.driving = false → OutboundClear s
  /-- no trip record in the states that make none -/
  noTrip : s.seq.state.tripless = true → s.seq.trip = none
  /-- DORMANT stands only while TRN reads normal, with RUNP asserted and SPD at code 3 (R118) -/
  dormant : s.seq.state = .dormant → s.supply.trn = .normal ∧ s.seq.runp = true ∧ s.seq.spd = .p100
  /-- until RESET is released RUNP is negated (R132), and nothing else of the block moves -/
  held : inReset s = true → HeldInReset s
  /-- in UNCONFIGURED RUNP and SPD follow TRN (R118, R120) -/
  unconfigured : s.seq.state = .unconfigured → inReset s = false →
    s.seq.runp = (s.supply.trn == .normal) ∧ s.seq.spd = (if s.supply.trn = .normal then .p100 else .p25)
  /-- in a session the run permit stands only for a RUNNING record, whose CLAIM is no longer on its way (R136) -/
  permit : s.seq.state.session = true → s.seq.runp = true →
    s.seq.state.runs = true ∧ tripIn .running s = true ∧ s.con.attempt.serves .claim = false
  /-- RUNP is asserted in EVAC_RUN, SERVICE_RUN and SHED_PENDING (R118) -/
  running : s.seq.state = .evacRun ∨ s.seq.state = .serviceRun ∨ s.seq.state = .shedPending → s.seq.runp = true
  /-- in a session SPD carries code 0 while RUNP is negated (R118) -/
  speed : s.seq.state.session = true → s.seq.runp = false → s.seq.spd = .p25
  /-- in a session SPD carries the running trip's admitted step, and code 0 for a run of FALLBACK, which has none (R118,
  R136, R161) -/
  pace : s.seq.state.session = true → s.seq.runp = true → ∀ x, s.seq.trip = some x → s.seq.spd = x.step.getD .p25
  /-- a PENDING record has no admitted step (R135) -/
  unadmitted : ∀ x, s.seq.trip = some x → x.phase = .pending → x.step = none
  /-- EMOP is asserted in the session states and in no other (R118) -/
  emergency : s.seq.emop = s.seq.state.session
  /-- SHDN is asserted in SHED_PENDING and in no other state (R118) -/
  shed : s.seq.shdn = (s.seq.state == .shedPending)
  /-- the roster column (R118) -/
  roster : s.seq.state ≠ .isolated → s.roster.isOpen = s.seq.state.opensRoster
  /-- the own standing is 0 where the car has none (R118, R119) -/
  standing : s.seq.state.driving = false → s.seq.state ≠ .fallback →
    s.seq.commitment = 0 ∧ s.seq.claimClass = 0 ∧ s.seq.stamp = 0

/-- A CLAIM never waits for its slot while the RELEASE slot holds a message (R107). -/
abbrev ReleaseFirst (s : State) : Prop := s.con.attempt.isWaiting .claim = true → s.con.releaseSlot = none

/-- A station that has spoken in this round has no attempt in hand (R102). -/
abbrev SpokenWaits (s : State) : Prop := s.con.spoken = true → s.con.attempt = .none

/-- The observation queue holds at most 16 entries (R178). -/
abbrev QueueBounded (s : State) : Prop := s.link.queue.length ≤ Config.queueLimit

/-! ### The roster -/

/-- A stamp field: 0 or a stamp of the ring (R21, R30). -/
def stampValue (n : Nat) : Prop := n ≤ Config.stampRing

/-- A record as the roster may hold it for this own station under this mark (R18, R21, R32). -/
structure RecordSound (own mark : Nat) (r : StationRecord) : Prop where
  station : 1 ≤ r.station ∧ r.station ≤ 62
  other : r.station ≠ own
  stamp : stampValue r.stamp
  known : r.stamp ≠ 0 → mark ≠ 0
  near : r.stamp ≠ 0 → ringDiff mark r.stamp ≤ Config.stampReach

/-- The roster is in its one canonical form: at most one record for each other station, by rising station number, every stamp
within the floor of the mark, and nothing held while it is CLOSED (R18, R32). -/
structure RosterSound (s : State) : Prop where
  rising : risingStations s.roster.records = true
  record : ∀ r ∈ s.roster.records, RecordSound s.station s.roster.mark r
  mark : stampValue s.roster.mark
  closed : s.roster.isOpen = false → s.roster.records = []
  /-- the stamp of a CLAIM on its way is a stamp of the ring (R33, R90) -/
  onItsWay : ∀ c, s.con.attempt = .waiting (.claim c) ∨ s.con.attempt = .sending (.claim c) → stampValue c.stamp

/-- The largest evac demand that these records hold (R27): none when none of them holds one. -/
def LargestDemand (records : List StationRecord) (d : Option Int) : Prop :=
  (d = none ↔ ∀ r ∈ records, r.demand = none) ∧
    ∀ e, d = some e → (∃ r ∈ records, r.demand = some e) ∧ ∀ r ∈ records, ∀ x, r.demand = some x → x ≤ e

/-- Entry a stands ahead of entry b (R34): stamped entries first, the nearest behind the mark first; equal stamps, and entries
with stamp 0, by station number, higher first. -/
def Ahead (mark : Nat) (a b : Entry) : Prop :=
  (a.stamp ≠ 0 ∧ b.stamp = 0) ∨ (a.stamp = 0 ∧ b.stamp = 0 ∧ b.station < a.station) ∨
    (a.stamp ≠ 0 ∧ b.stamp ≠ 0 ∧ (ringDiff mark a.stamp < ringDiff mark b.stamp ∨
      (ringDiff mark a.stamp = ringDiff mark b.stamp ∧ b.station < a.station)))

/-- The restoration order (R34): the controller itself whatever its draw and each record that draws, newest first. -/
def IsRestorationOrder (s : State) (order : List Entry) : Prop :=
  order.Perm ({ station := s.station, draw := s.seq.commitment, cls := s.seq.claimClass
                stamp := floored s.roster.mark s.seq.stamp } ::
      ((s.roster.records.filter fun r => decide (0 < r.committed)).map fun r =>
        { station := r.station, draw := r.committed, cls := r.cls, stamp := r.stamp })) ∧
    order.Pairwise (Ahead s.roster.mark)

/-- The order position of a station: its place from 1, or 0 when the order does not hold it (R35). -/
def PlaceIn (order : List Entry) (station p : Nat) : Prop :=
  (p = 0 ∧ ∀ e ∈ order, e.station ≠ station) ∨
    ∃ before e after, order = before ++ e :: after ∧ e.station = station ∧ p = before.length + 1

/-! ### Admission and shedding -/

/-- The step test and the test of the step's flow beside these sums (R39, R49). -/
def Fits (s : State) (mpos gneg : Nat) (f : StepFigures) : Prop :=
  f.start ≤ capacityOf s * (conf s).stepa / 100 ∧ (0 < f.draw → (mpos : Int) + f.draw ≤ capacityOf s) ∧
    (f.draw < 0 → (gneg : Int) + -f.draw ≤ (conf s).absorb)

/-- The supply is settled for a trip of this class (R51, R74). -/
def SettledFor (s : State) (cls : Nat) : Prop :=
  s.supply.settle = .expired ∧ s.supply.inWindowHalf = true ∧ (3 ≤ cls → s.supply.holdTimer = .stopped)

/-- The shed test finds the own station in the shed set (R151, R153). -/
def ShedsOwn (s : State) : Prop := ∃ e ∈ shedSet s, e.station = s.station

/-- The RELEASE of a shed (R154, R156). -/
def shedRelease (id : Fin 16) : Release := { reason := .shed, tripId := id, draw := 0, stamp := 0 }

/-- The state a trip returns to (R135, R144). -/
def Origin.home : Origin → SeqState
  | .serviceIdle => .serviceIdle
  | .parked => .parked
  | .assess | .evacWait | .fallback => .evacWait

/-- A record as a report of this occupancy leaves it: an evacuation record is of class 1 once the car is occupied (R126, R134). -/
def reclassed (occupancy : Byte) (x : Trip) : Trip :=
  if occupancy = 1 ∧ x.purpose = .evacuation then { x with cls := 1 } else x

/-! ### The checks of a received activity, in the words of R92 -/

/-- The length check: kind 1 with 9 octets, kind 2 with 13 or kind 3 with 16. -/
def LengthRight (u : LineUnit) : Prop :=
  ∃ first rest, u.octets = first :: rest ∧
    ((first.toNat / 16 = 1 ∧ u.octetCount = 9) ∨ (first.toNat / 16 = 2 ∧ u.octetCount = 13) ∨
      (first.toNat / 16 = 3 ∧ u.octetCount = 16))

/-- The CRC check: the last two octets carry the CRC of those before them, high octet first. -/
def CrcRight (octets : List Byte) : Prop :=
  ∃ before hi lo, octets = before ++ [hi, lo] ∧ 256 * hi.toNat + lo.toNat = (crcOf before).toNat

/-- The field checks, kind by kind, over the octets of R88: header with its class and reserved bit, station, and the fields of
the kind. 32768 is 8000 hex. -/
def FieldsRight (octets : List Byte) : Prop :=
  (∃ header station tag dh dl sh sl ch cl : Byte, octets = [header, station, tag, dh, dl, sh, sl, ch, cl] ∧
    header.toNat = 1 * 16 ∧ 1 ≤ station.toNat ∧ station.toNat ≤ 62 ∧
    1 ≤ tag.toNat / 16 ∧ tag.toNat / 16 ≤ 6 ∧ 256 * dh.toNat + dl.toNat ≠ 32768) ∨
  (∃ header station tag nh nl sh sl th tl dh dl ch cl : Byte,
    octets = [header, station, tag, nh, nl, sh, sl, th, tl, dh, dl, ch, cl] ∧
    (∃ cls, 1 ≤ cls ∧ cls ≤ 5 ∧ header.toNat = 2 * 16 + 2 * cls) ∧ 1 ≤ station.toNat ∧ station.toNat ≤ 62 ∧
    tag.getLsbD 6 = false ∧ 256 * nh.toNat + nl.toNat ≠ 32768 ∧ 256 * sh.toNat + sl.toNat ≤ 32767 ∧
    256 * th.toNat + tl.toNat ≠ 0 ∧ 256 * dh.toNat + dl.toNat ≤ 32767) ∨
  (∃ header station summary flags mh ml dh dl gh gl th tl eh el ch cl : Byte,
    octets = [header, station, summary, flags, mh, ml, dh, dl, gh, gl, th, tl, eh, el, ch, cl] ∧
    header.toNat = 3 * 16 + 2 * 6 ∧ 1 ≤ station.toNat ∧ station.toNat ≤ 62 ∧
    1 ≤ summary.toNat ∧ summary.toNat ≤ 10 ∧ flags.toNat < 16 ∧ 256 * mh.toNat + ml.toNat ≠ 32768 ∧
    256 * dh.toNat + dl.toNat ≤ 32767 ∧ 256 * gh.toNat + gl.toNat ≤ 32767 ∧
    (flags.getLsbD 3 = true → 256 * eh.toNat + el.toNat ≠ 32768))

/-- The activity fails with this error kind: the check that names it is the first of the five, in their order, that fails. -/
def FailsWith (u : LineUnit) : LineError → Prop
  | .longDominant => u.longMark = true
  | .frame => u.longMark = false ∧ u.frameMark = true
  | .length => u.longMark = false ∧ u.frameMark = false ∧ ¬LengthRight u
  | .crc => u.longMark = false ∧ u.frameMark = false ∧ LengthRight u ∧ ¬CrcRight u.octets
  | .field => u.longMark = false ∧ u.frameMark = false ∧ LengthRight u ∧ CrcRight u.octets ∧ ¬FieldsRight u.octets
  | .none => False

/-! ### The CONFIGURE record, in the words of R173 -/

/-- The 32 values of a record in the order of their index: each field is the octet, or the two octets, high octet first, that
stand there in the 42, and a zero selects the default that the table gives. -/
def recordValues (record : List Byte) : List Nat :=
  let o := fun place => (record.getD (place - 1) 0).toNat
  let w := fun place => 256 * o place + o (place + 1)
  let selects := fun v default => if v = 0 then default else v
  [selects (o 1) 45, selects (w 2) 400, w 4, o 6, selects (w 7) 180, o 9, selects (o 10) 50, w 11, w 13,
    selects (o 15) 25, w 16, selects (w 18) 200, o 20, selects (o 21) 50, selects (o 22) 6, selects (o 23) 10] ++
  [selects (w 24) 60, selects (o 26) 20, selects (o 27) 10, selects (o 28) 60, selects (o 29) 20, selects (w 30) 120,
    selects (w 32) 120, o 34, o 35, o 36, o 37, o 38, o 39, o 40, o 41, o 42]

/-- The value of a field of the record by its index, 1 to 32. -/
def recordValue (record : List Byte) (index : Nat) : Nat := (recordValues record).getD (index - 1) 0

/-- The accepted values of the field of an index. -/
def AcceptedValue (index v : Nat) : Prop :=
  match index with
  | 1 => 40 ≤ v ∧ v ≤ 55
  | 2 => 10 ≤ v ∧ v ≤ 2000
  | 3 => v ≤ 500
  | 4 => v ≤ 90
  | 5 => 100 ≤ v ∧ v ≤ 300
  | 6 => v ≤ 200
  | 7 => v = 25 ∨ v = 50 ∨ v = 75 ∨ v = 100
  | 8 => 100 ≤ v ∧ v ≤ 9000
  | 9 => v ≤ 10000
  | 10 => 10 ≤ v ∧ v ≤ 60
  | 11 => v ≤ 5000
  | 12 => 1 ≤ v ∧ v ≤ 3000
  | 13 => 2 ≤ v ∧ v ≤ 62
  | 14 => v = 50 ∨ v = 60
  | 15 => 1 ≤ v ∧ v ≤ 30
  | 16 => 2 ≤ v ∧ v ≤ 60
  | 17 => 10 ≤ v ∧ v ≤ 600
  | 18 => 5 ≤ v ∧ v ≤ 120
  | 19 => 5 ≤ v ∧ v ≤ 40
  | 20 => 10 ≤ v ∧ v ≤ 180
  | 21 => 5 ≤ v ∧ v ≤ 120
  | 22 => 20 ≤ v ∧ v ≤ 900
  | 23 => 30 ≤ v ∧ v ≤ 600
  | 24 | 29 | 32 => v < 8
  | 25 | 26 => v < 16
  | _ => v < 64

/-- Every field of the record holds an accepted value. -/
def FieldsAccepted (record : List Byte) : Prop := ∀ k, 1 ≤ k → k ≤ 32 → AcceptedValue k (recordValue record k)

/-- The first field, in order of index, whose value is not accepted. -/
def FirstBadIndex (record : List Byte) (k : Nat) : Prop :=
  1 ≤ k ∧ k ≤ 32 ∧ ¬AcceptedValue k (recordValue record k) ∧
    ∀ j, 1 ≤ j → j < k → AcceptedValue j (recordValue record j)

/-- The configuration stored holds the value of each field of the record, and its declared maxima are those of its figures. -/
def StoresRecord (record : List Byte) (c : Configuration) : Prop :=
  let v := recordValue record
  c.lspd.percent = v 7 ∧ c = {
    bal := v 1, full := v 2, loss := v 3, rgs := v 4, start := v 5, stby := v 6, lspd := c.lspd, sstep := v 8, rsv := v 9
    stepa := v 10, absorb := v 11, phant := v 12, census := v 13, fnom := v 14, settleTime := v 15, holdTime := v 16
    agingTime := v 17, patience := v 18, reportInterval := v 19, runLimit := v 20, dwell := v 21, idleTime := v 22
    window := v 23, unmaskStale := v 24 % 2 == 1, unmaskPhantom := v 24 / 2 % 2 == 1, unmaskRange := v 24 / 4 % 2 == 1
    idleRestartMask := BitVec.ofNat 8 (v 25), wakeMask := BitVec.ofNat 8 (v 26)
    dmax := declaredDmax c, gmax := declaredGmax c }

/-- The filter whose pattern, care mask and kind set are the three fields from an index on. -/
def FilterOf (record : List Byte) (index : Nat) (f : ObservationFilter) : Prop :=
  f = { pattern := BitVec.ofNat 8 (recordValue record index), care := BitVec.ofNat 8 (recordValue record (index + 1))
        kinds := BitVec.ofNat 8 (recordValue record (index + 2)) }

/-! ### Requests taken and answered (R168, R169) -/

/-- The CLAIM of this trip completed at this very instant, and a TRIP-CANCEL of this field names it (R115). -/
def CompletedNow (s : State) (tripId : Byte) (x : Trip) : Prop :=
  namesTrip tripId x.id = true ∧ s.seq.lastClaim = some { trip := x, instant := s.now }

/-- A request that a configured controller takes can be taken now. -/
abbrev Taking (s : State) : Prop := linkReady s = true ∧ configured s = true

/-- The reply being sent says accepted, with these data. -/
def AcceptedWith (t : State) (data : List Byte) : Prop :=
  t.link.reply = .sending (linkFrame (statusOctet false false t.link.attention) data) ∧ t.link.receiver = .idle

/-- The reply being sent says CHECK, and SENSE reads this reason with this detail. -/
def RefusedWith (t : State) (reason : Reason) (detail : Nat) : Prop :=
  t.link.reply = .sending (linkFrame (statusOctet false true t.link.attention) []) ∧ t.link.receiver = .idle ∧
    t.link.reason = reason ∧ t.link.detail = detail

/-- The reply being sent says BUSY, and no reason is held. -/
def AnsweredBusy (t : State) : Prop :=
  t.link.reply = .sending (linkFrame (statusOctet true false t.link.attention) []) ∧ t.link.receiver = .idle ∧
    t.link.reason = .none ∧ t.link.detail = 0

/-- The held reason is NONE with detail 0, as every accepted request but SENSE leaves it. -/
def NoReason (t : State) : Prop := t.link.reason = .none ∧ t.link.detail = 0

/-- All of the car link but the receiver, the reply, the held reason and ATTENTION is as it was. -/
def LinkElse (s t : State) : Prop :=
  t.link.accept = s.link.accept ∧ t.link.reject = s.link.reject ∧ t.link.queue = s.link.queue ∧
    t.link.overrun = s.link.overrun

/-- A reported time counts whole units, a part of one dropped or taken as one more (log 8). -/
def CountsUnits (unit time n : Nat) : Prop := n = time / unit ∨ n = (time + unit - 1) / unit

/-- A trip whose CLAIM stands on the line ends without having run (R144): the record is NONE, PRESENCE due, the answer TOO_LATE. The car
returns to the state the trip came from, with a RELEASE to the standing held before; one asked to shed parks, with its SHED RELEASE
(R155). The own standing waits for that RELEASE. -/
def TakenBack (s t : State) (x : Trip) (p : Standing) : Prop :=
  t.seq.trip = none ∧ t.con.presenceDue = true ∧ RefusedWith t .tooLate x.id.val ∧ LinkElse s t ∧
  (s.seq.trip ≠ none ∨ t.seq.state ≠ s.seq.state → t.link.attention = true) ∧
  (t.seq.state ≠ s.seq.state → t.seq.shdn = false) ∧ t.seq.shedOwed = false ∧
  (s.seq.shedOwed = false → s.seq.state ≠ .shedPending → t.seq.state = x.origin.home ∧
    t.seq.shedHold = s.seq.shedHold ∧ t.con.releaseSlot = some {
      reason := .cancelled, tripId := x.id, draw := p.draw, stamp := if p.draw = 0 then 0 else p.stamp }) ∧
  (s.seq.shedOwed = true ∨ s.seq.state = .shedPending → t.seq.state = .parked ∧
    t.con.releaseSlot = some (shedRelease x.id) ∧ t.seq.shedHold = .timing t.now) ∧
  t.seq = { s.seq with
    state := t.seq.state, shdn := t.seq.shdn, runp := t.seq.runp, spd := t.seq.spd, trip := none
    runTimer := .stopped
    dwellTimer := .stopped, agingTimer := .stopped, shedHold := t.seq.shedHold, shedOwed := false
    idleTimer := if t.seq.state = .serviceIdle then .running s.now else .stopped } ∧
  t.adm = { s.adm with patience := .stopped, ownDemand := none } ∧
  t.con = { s.con with
    attempt := t.con.attempt, key := t.con.key, slotDeadline := t.con.slotDeadline
    releaseSlot := t.con.releaseSlot, superseded := t.con.superseded, presenceDue := true
    remarked := t.con.remarked } ∧
  t = { s with seq := t.seq, adm := t.adm, con := t.con, link := t.link }

/-! ### Observation, in the words of R97, R177 and R178 -/

/-- A message matches a filter: its kind is in the kind set, and its station number agrees with the pattern in every bit that is set
in the care mask. -/
def Matches (f : ObservationFilter) (m : Message) : Prop :=
  f.kinds.getLsbD (match m.body with
    | .release _ => 0
    | .claim _ => 1
    | .presence _ => 2) = true ∧
  ∀ k, k < 8 → f.care.getLsbD k = true → m.station.testBit k = f.pattern.getLsbD k

/-- The entry of a message, field by field, with its tag: the third octet of the message as R88 lays it out. -/
def entryOf (m : Message) (own : Bool) : Observation :=
  match m.body with
  | .release r =>
    { kind := .release, station := m.station, cls := 0, draw := r.draw, stamp := r.stamp, own := own, start := none
      tag := BitVec.ofNat 8 (16 * r.reason.code + r.tripId.val) }
  | .claim c =>
    { kind := .claim, station := m.station, cls := c.cls, draw := c.draw, stamp := c.stamp, own := own
      start := some c.start
      tag := BitVec.ofNat 8 ((if c.kind = .wake then 128 else 0) + 16 * c.speed.code + c.tripId.val) }
  | .presence p =>
    { kind := .presence, station := m.station, cls := 6, draw := p.committed, stamp := p.stamp, own := own, start := none
      tag := BitVec.ofNat 8 p.summary.code }

/-- A message was offered to the filters: it is kept when it matches ACCEPT and not REJECT. A kept one joins the end of the queue
with ATTENTION, or is lost with overrun when 16 stand there, whose raising sets ATTENTION; any other changes nothing. -/
def Observed (s t : State) (m : Message) (own : Bool) : Prop :=
  t.link.accept = s.link.accept ∧ t.link.reject = s.link.reject ∧
  (Matches s.link.accept m → ¬Matches s.link.reject m →
    (s.link.queue.length < 16 → t.link.queue = s.link.queue ++ [entryOf m own] ∧
      t.link.overrun = s.link.overrun ∧ t.link.attention = true) ∧
    (16 ≤ s.link.queue.length → t.link.queue = s.link.queue ∧ t.link.overrun = true ∧
      (s.link.overrun = false → t.link.attention = true))) ∧
  (¬Matches s.link.accept m ∨ Matches s.link.reject m →
    t.link.queue = s.link.queue ∧ t.link.overrun = s.link.overrun)

/-! ### What a roster change sets off (R28, R151 to R157) -/

/-- A roster change: a record created, or another committed draw, class, stamp, freshness or evac demand in one (R28). -/
def RosterChange (old new : List StationRecord) : Prop :=
  (old.map fun r => (r.station, r.committed, r.cls, r.stamp, r.fresh, r.demand)) ≠
    new.map fun r => (r.station, r.committed, r.cls, r.stamp, r.fresh, r.demand)

/-- The state in which a roster change finds the block: the changed roster, and a shed hold that waited for the last demand CLEAR
when no record holds one (R157). -/
def withRoster (s : State) (r : Roster) : State :=
  { s with
    roster := r
    seq := { s.seq with
      shedHold := if s.seq.shedHold = .awaitDemand ∧ ∀ x ∈ r.records, x.demand = none then .clear else s.seq.shedHold } }

/-- What the shed test of a state leaves in the shed view, and that a sum held at 65535 raises SATURATE (R151, R152). -/
def ShedViewed (s t : State) : Prop :=
  t.adm.shedView.excess = shedExcess s ∧ t.adm.shedView.size = (shedSet s).length ∧
  (t.adm.shedView.own = true ↔ ShedsOwn s) ∧
  (65535 ≤ s.seq.commitment.toNat + (s.roster.records.map fun r => r.committed.toNat).sum →
    t.adm.conditions.saturate = true)

/-- What the shed test of a state does to the own car: nothing outside the set, and in it what R154 to R157 give for the state. -/
def ShedActed (s t : State) : Prop :=
  (¬ShedsOwn s → t.seq = { s.seq with trip := t.seq.trip } ∧
    t.con.releaseSlot = s.con.releaseSlot ∧ t.con.claimSlot = s.con.claimSlot) ∧
  (ShedsOwn s →
    (s.seq.state = .serviceIdle → t.seq.state = .parked ∧ t.seq.idleTimer = .stopped ∧
      t.con.releaseSlot = some (shedRelease s.seq.lastTripId) ∧ t.seq.shedHold = .timing t.now ∧
      t.con.presenceDue = true ∧ t.link.attention = true ∧ (tripIn .ending s = true → tripIn .ending t = true)) ∧
    (s.seq.state = .serviceWait → s.con.attempt.isSending .claim = false → t.seq.state = .parked ∧
      t.seq.trip = none ∧ t.con.claimSlot = none ∧ t.seq.agingTimer = .stopped ∧
      t.con.releaseSlot = some (shedRelease s.seq.lastTripId) ∧ t.seq.shedHold = .timing t.now ∧
      t.con.presenceDue = true ∧ t.link.attention = true) ∧
    (s.seq.state = .serviceWait → s.con.attempt.isSending .claim = true → t.seq = { s.seq with
        shedOwed := true, trip := s.seq.trip.map fun x => { x with cancel := true } } ∧
      t.con = { s.con with withdrawn := true, roundTimer := t.con.roundTimer }) ∧
    (s.seq.state = .serviceRun → t.seq = { s.seq with state := .shedPending, shdn := true, trip := t.seq.trip } ∧
      (tripIn .running s = true → t.seq.trip = s.seq.trip) ∧ t.con.releaseSlot = s.con.releaseSlot ∧
      t.con.presenceDue = true ∧ t.link.attention = true) ∧
    (s.seq.state = .assess ∨ s.seq.state = .evacWait → t.seq = { s.seq with
        shedHold := .timing t.now, trip := t.seq.trip } ∧
      t.seq.trip.map Trip.id = s.seq.trip.map Trip.id ∧ t.con.claimSlot = s.con.claimSlot ∧
      t.con.releaseSlot = some (shedRelease s.seq.lastTripId) ∧ t.con.presenceDue = true) ∧
    (s.seq.state = .joining ∨ s.seq.state = .landed ∨ s.seq.state = .parked ∨ s.seq.state = .evacRun ∨
        s.seq.state = .shedPending → t.seq = { s.seq with trip := t.seq.trip } ∧
      t.con.releaseSlot = s.con.releaseSlot))

/-! ### Attempts and reference points (R46, R47, R54, R57, R103, R104, R107, R108, R110, R135) -/

/-- A WAITING attempt is abandoned (R110): it is NONE with key 0 and its slot timer stopped, and an abandoned CLAIM's ARMED record
is PENDING with no admitted step (R135). No other attempt, and no other record, is touched. -/
def Abandoned (s t : State) : Prop :=
  (∀ b, s.con.attempt = .waiting b → t.con.attempt = .none ∧ t.con.key = 0 ∧ t.con.slotDeadline = none) ∧
  ((∀ b, s.con.attempt ≠ .waiting b) → t.con.attempt = s.con.attempt ∧ t.con.key = s.con.key ∧
    t.con.slotDeadline = s.con.slotDeadline) ∧
  (∀ x, s.con.attempt.isWaiting .claim = true → s.seq.trip = some x → x.phase = .armed →
    t.seq.trip = some { x with phase := .pending, step := none } ∧ t.link.attention = true) ∧
  (∀ x, s.con.attempt.isWaiting .claim = false ∨ x.phase ≠ .armed → s.seq.trip = some x → t.seq.trip = some x) ∧
  (s.seq.trip = none → t.seq.trip = none)

/-- The evaluation of a trip at a reference point: what the view takes, the patience timer, and an EXCEEDS, which ends the trip
(R46, R47, R54, R57, R135). -/
def Evaluated (s t : State) (x : Trip) : Prop :=
  t.adm.view.outcome = (decideTrip s x).outcome ∧
  t.adm.view.tripId = s.adm.view.tripId ∧ t.adm.view.mpos = motoringSum s ∧ t.adm.view.gneg = returningSum s ∧
  t.adm.view.cap = capacityOf s ∧ t.adm.view.stepMax = capacityOf s * (conf s).stepa / 100 ∧
  t.adm.view.unheard = (conf s).census - 1 - s.roster.records.length ∧
  t.adm.view.stale = (s.roster.records.filter fun r => !r.fresh).length ∧
  ((decideTrip s x).outcome ≠ .exceeds → t.adm.view.exceeded = s.adm.view.exceeded ∧
    t.seq.state = s.seq.state ∧ t.con.claimSlot = s.con.claimSlot ∧ t.adm.ownDemand = s.adm.ownDemand ∧
    ((decideTrip s x).outcome = .waitHeadroom → x.cls ≤ 2 →
      t.adm.patience = if s.adm.patience = .stopped then .running t.now else s.adm.patience) ∧
    ((decideTrip s x).outcome ≠ .waitHeadroom ∨ 3 ≤ x.cls → t.adm.patience = .stopped)) ∧
  ((decideTrip s x).outcome = .exceeds → t.seq.trip = none ∧ t.con.claimSlot = none ∧
    t.seq.agingTimer = .stopped ∧ t.adm.patience = .stopped ∧ t.adm.ownDemand = none ∧
    t.adm.view.exceeded = true ∧ t.link.reason = .exceedsCapacity ∧ t.link.detail = x.id.val ∧
    t.seq.state = x.origin.home ∧ t.con.presenceDue = true ∧ t.link.attention = true)

/-- The choice at a reference point of this instant, in an open round and with nothing spoken (R103, R104, R107, R108): a posted
RELEASE; else the CLAIM of a trip just admitted, whose record is ARMED at the admitted step; else a due PRESENCE with the
standing of that moment, its re-marked mark cleared; else nothing. The slot comes 12 + 2 × key bit times on. -/
def Chosen (instant : Nat) (s t : State) : Prop :=
  (∀ r, s.con.releaseSlot = some r → t.con.attempt = .waiting (.release r) ∧ t.con.key = s.station ∧
    t.con.slotDeadline = some (instant + (12 + 2 * s.station) * 10) ∧ t.con.releaseSlot = some r) ∧
  (∀ x p v f, s.con.releaseSlot = none → s.seq.trip = some x → x.phase = .pending → s.con.claimSlot = some p →
    decideTrip s x = { outcome := .admitted, offer := some (v, f) } →
    t.con.attempt = .waiting (.claim {
      cls := x.cls, kind := x.figures.kind, speed := v.getD .p25, tripId := x.id, draw := f.draw, start := f.start
      stamp := nextStamp s.roster.mark, dmax := (conf s).dmax }) ∧
    t.con.key = x.cls * 64 + s.station ∧
    t.con.slotDeadline = some (instant + (12 + 2 * (x.cls * 64 + s.station)) * 10) ∧
    t.seq = { s.seq with trip := some { x with phase := .armed, step := v } } ∧ t.con.claimSlot = some p ∧
    t.link.attention = true) ∧
  (s.con.releaseSlot = none →
    (s.con.claimSlot = none ∨ ∀ x, s.seq.trip = some x → (decideTrip s x).outcome ≠ .admitted) →
    (s.con.presenceDue = true → t.con.key = 384 + s.station ∧
      t.con.slotDeadline = some (instant + (12 + 2 * (384 + s.station)) * 10) ∧
      t.con.presenceDue = true ∧ t.con.remarked = false ∧
      t.con.attempt = .waiting (.presence {
        summary := t.seq.state, serviceSelected := s.seq.serviceSelected, lockout := s.seq.lockout
        shedPending := t.seq.state == .shedPending, demand := t.adm.ownDemand, committed := s.seq.commitment
        dmax := (conf s).dmax, gmax := (conf s).gmax, stamp := s.seq.stamp })) ∧
    ((∀ x, s.seq.trip = some x → (decideTrip s x).outcome ≠ .exceeds) →
      t.seq.state = s.seq.state ∧ t.adm.ownDemand = s.adm.ownDemand ∧
      (s.con.presenceDue = false → t.con.attempt = .none ∧ t.con.presenceDue = false)))

/-- No base gap lies before any of these changes of the others' drive: each comes while the line is dominant, or at most 12 bit
times after it last became recessive (R82). -/
def GapFree (u : LineUnit) : List LineChange → Prop
  | [] => True
  | c :: rest =>
    ((u.driveTo (u.instant c - 1)).level = .dominant ∨
      u.instant c ≤ (u.driveTo (u.instant c - 1)).changedAt + 120) ∧ GapFree (u.othersChange c) rest

/-- A line unit at a reset (R98, R79): as R98 gives it, on a line at the level that the others have left on it by now. Of what was told
within an activity or before the first base gap, the last change that has come is that level, and those to come are counted from the
reset (log 5). -/
def LineAnew (u v : LineUnit) (now : Nat) : Prop :=
  v = {
    others := v.others, follows := true, coming := v.coming, level := v.others, readTo := now, changedAt := now
    awaitingGap := true, active := false, startedAt := now, inHand := none, inTimeUntil := 0, octets := []
    octetCount := 0, frameMark := false, longMark := false, endReference := none, longTimer := .stopped
    transmitter := none, lastError := .none } ∧
  ((u.active = false ∧ u.awaitingGap = false) ∨ u.coming = [] → v.others = u.others ∧ v.coming = []) ∧
  (u.active = true ∨ u.awaitingGap = true → ∀ before after, u.coming = before ++ after →
    (∀ c ∈ before, u.startedAt + c.after ≤ now) → (∀ c ∈ after, now < u.startedAt + c.after) →
    v.others = (before.getLast?.map LineChange.level).getD u.others ∧
    v.coming = after.map fun c => { c with after := u.startedAt + c.after - now })

/-! ### Entries to JOINING, and departures from the driving states (R124, R129, R164) -/

/-- JOINING entered (R19, R124): the roster anew and open, no standing, the settle, join and presence-due timers started, PRESENCE
due, the report no longer fresh. -/
def JoinedNow (s t : State) : Prop :=
  t.seq.state = .joining ∧ t.seq.shdn = false ∧ t.roster = { isOpen := true } ∧ t.seq.commitment = 0 ∧
  t.seq.claimClass = 0 ∧ t.seq.stamp = 0 ∧ t.supply.settle = .running t.now ∧ t.seq.joinTimer = .running t.now ∧
  t.con.presenceTimer = .running t.now ∧ t.con.presenceDue = true ∧
  t.seq.report = { s.seq.report with fresh := false } ∧ t.seq.startWindow = .stopped ∧ t.adm.ownDemand = none ∧
  t.link.attention = true

/-- What a departure settles (R164): the shed-owed mark is cleared, and a TRIP-CANCEL whose reply waits is answered accepted, with
the state entered (log 15). -/
def DebtsSettled (s t : State) : Prop :=
  t.seq.shedOwed = false ∧
  (∀ id, s.link.reply = .held id → t.link.reply =
    .sending (linkFrame (statusOctet false false true) [octet t.seq.state.code])) ∧
  ((∀ id, s.link.reply ≠ .held id) → t.link.reply = s.link.reply)

/-- SUPPLY_LOSS taken at an instant (R76, R129, R164): AWAIT_SUPPLY for 15 s with the car stopped; no trip, standing, roster or
message is kept, and nothing is sent. -/
def SupplyLost (s t : State) (instant : Nat) : Prop :=
  t.seq.state = .awaitSupply ∧ t.seq.startWindow = .running instant ∧ t.seq.startWindowLength = 15000000 ∧
  t.seq.trip = none ∧ t.seq.runp = false ∧ t.seq.spd = .p25 ∧ t.seq.shdn = false ∧ t.seq.emop = true ∧
  t.seq.commitment = 0 ∧ t.seq.claimClass = 0 ∧ t.seq.stamp = 0 ∧ t.seq.shedHold = .clear ∧
  t.seq.joinTimer = .stopped ∧ t.seq.runTimer = .stopped ∧ t.seq.dwellTimer = .stopped ∧
  t.seq.idleTimer = .stopped ∧ t.seq.agingTimer = .stopped ∧ t.adm.patience = .stopped ∧
  t.adm.ownDemand = none ∧ t.roster = {} ∧ OutboundClear t ∧ t.con.failures = 0 ∧ t.supply.settle = .stopped ∧
  t.supply.underTimer = .stopped ∧ t.supply.derate = s.supply.derate ∧ t.supply.episodeMark = s.supply.episodeMark ∧
  t.seq.lockout = s.seq.lockout ∧ t.seq.occupancy = s.seq.occupancy ∧ t.seq.occupancyHold = s.seq.occupancyHold ∧
  t.seq.serviceSelected = s.seq.serviceSelected ∧ t.seq.duplicate = s.seq.duplicate ∧
  t.seq.report = s.seq.report ∧ t.seq.sessionOrigin = s.seq.sessionOrigin ∧
  t.seq.tripCounter = s.seq.tripCounter ∧ t.link.attention = true ∧ DebtsSettled s t

/-- The class becomes, or stays, ABSENT at an instant (R66, R67, R69, R72, R75): a change of class stops the timers of the class,
is a notice, and in a supplied state with GOK asserted is SUPPLY_LOSS; elsewhere it raises no event. -/
def AbsenceTaken (s t : State) (instant : Nat) : Prop :=
  t.supply.freqClass = .absent ∧ t.supply.gok = s.supply.gok ∧ t.supply.trn = s.supply.trn ∧
  (s.supply.freqClass ≠ .absent → t.supply.inWindowTimer = .stopped ∧ t.supply.inWindowHalf = false ∧
    t.supply.underTimer = .stopped ∧ t.supply.derate = s.supply.derate ∧
    t.supply.episodeMark = s.supply.episodeMark) ∧
  (s.supply.freqClass ≠ .absent → s.seq.state.supplied = true → s.supply.gok = .asserted →
    SupplyLost s t instant) ∧
  (s.supply.freqClass ≠ .absent → s.seq.state.supplied = false ∨ s.supply.gok = .negated →
    Abandoned s t ∧ t.seq = { s.seq with trip := t.seq.trip } ∧ t.roster = s.roster ∧ t.adm = s.adm ∧
    t.line = s.line ∧ t.con.releaseSlot = s.con.releaseSlot ∧ t.con.claimSlot = s.con.claimSlot ∧
    t.con.presenceDue = s.con.presenceDue ∧ t.link.reply = s.link.reply ∧ t.supply.settle = s.supply.settle) ∧
  (s.supply.freqClass = .absent → t.seq = s.seq ∧ t.con = s.con ∧ t.roster = s.roster ∧ t.adm = s.adm ∧
    t.line = s.line ∧ t.link = s.link ∧ t.supply = { s.supply with
      train := t.supply.train, absenceTimer := t.supply.absenceTimer })

/-! ### Messages that the line can carry (R88, R92) -/

/-- A draw that a message can carry: −32767 to +32767 (R89, R92). -/
def drawField (n : Int) : Prop := -32767 ≤ n ∧ n ≤ 32767

/-- Fields that pass the checks of R92. -/
def Body.valid : Body → Prop
  | .release r => drawField r.draw ∧ stampValue r.stamp
  | .claim c => 1 ≤ c.cls ∧ c.cls ≤ 5 ∧ drawField c.draw ∧ c.start ≤ 32767 ∧ 1 ≤ c.stamp ∧ stampValue c.stamp ∧
      c.dmax ≤ 32767
  | .presence p => p.summary.driving = true ∧ drawField p.committed ∧ p.dmax ≤ 32767 ∧ p.gmax ≤ 32767 ∧
      stampValue p.stamp ∧ ∀ d, p.demand = some d → drawField d

/-- A message whose station and fields are ones R92 accepts. -/
def Message.valid (m : Message) : Prop := 1 ≤ m.station ∧ m.station ≤ 62 ∧ m.body.valid

end Sys2Proof.Machine
end

