-- ==== Sys2Proof/Certificates/Slice0/Obligations.lean ====
section
/-!
DEFINITION. The statements for the provers. Each says what the spec's rules give: a command's whole effect and what it leaves,
an arithmetic rule, a law that every step keeps.
-/

section
open Sys2Proof Sys2Proof.Machine

/-! ### The step and the queue -/

/-- A step takes the command at the front of the queue and is that command's meaning on the rest of it (log 25). -/
def Obligations.StepRunsFrontCommand : Prop :=
  ∀ (c : Instr) (rest : List Instr) (s : State),
    step { s with pending := c :: rest } = exec c { s with pending := rest }

/-- On an empty queue a step lets one bit time of 10 µs pass and changes nothing else: the model's choice (log 2). -/
def Obligations.EmptyQueueLetsOneBitTimePass : Prop :=
  ∀ s : State, s.pending = [] → step s = .next { s with now := s.now + 10 }

/-- Every command answers a next state, in every state and with every operand; none of them touches the queue, and none but a cold
reset changes the station number (R98). The queue (log 25), an answer for operands the spec excludes (log 32) and no stop at all
(log 37) are the model's choices. -/
def Obligations.EveryCommandAnswersNext : Prop :=
  ∀ (c : Instr) (s : State), ∃ t, exec c s = .next t ∧ t.pending = s.pending ∧
    ((∀ pins, c ≠ .coldReset pins) → t.station = s.station)

/-! ### Trip figures -/

/-- A motoring trip's steady draw (R6): LOSS and the imbalance draw rounded up, at least LOSS + 1, at most 2200, and no smaller at
a higher step. -/
def Obligations.MotoringDraw : Prop :=
  ∀ (c : Configuration) (d : Nat) (v w : SpeedStep),
    1 ≤ d → d ≤ 85 → 10 ≤ c.full → c.full ≤ 2000 → c.loss ≤ 500 →
    (∃ q : Nat, steadyDraw c d v.percent = (c.loss + q : Nat) ∧
      c.full * d * v.percent ≤ 10000 * q ∧ 10000 * q < c.full * d * v.percent + 10000) ∧
    (c.loss : Int) + 1 ≤ steadyDraw c d v.percent ∧ steadyDraw c d v.percent ≤ 2200 ∧
    (v.percent ≤ w.percent → steadyDraw c d v.percent ≤ steadyDraw c d w.percent)

/-- A level trip's steady draw is LOSS at every step (R7). -/
def Obligations.LevelDraw : Prop :=
  ∀ (c : Configuration) (v w : SpeedStep),
    steadyDraw c 0 v.percent = (c.loss : Int) ∧ steadyDraw c 0 v.percent = steadyDraw c 0 w.percent ∧
      (c.loss = 0 → steadyDraw c 0 v.percent = 0)

/-- A regenerating trip's steady draw is LOSS less the returned power, which is rounded down, lies within 0 to 1530, does not fall as
the step rises, and is 0 with RGS 0 (R8). -/
def Obligations.RegeneratingDraw : Prop :=
  ∀ (c : Configuration) (m : Nat) (v w : SpeedStep),
    1 ≤ m → m ≤ 85 → c.full ≤ 2000 → c.rgs ≤ 90 →
    ∃ g : Nat, steadyDraw c (-(m : Int)) v.percent = (c.loss : Int) - (g : Int) ∧
      1000000 * g ≤ c.full * m * v.percent * c.rgs ∧ c.full * m * v.percent * c.rgs < 1000000 * g + 1000000 ∧
      g ≤ 1530 ∧ (c.rgs = 0 → g = 0) ∧
      (v.percent ≤ w.percent → steadyDraw c (-(m : Int)) w.percent ≤ steadyDraw c (-(m : Int)) v.percent)

/-- The start step (R9): the draw, or LOSS for a level or regenerating trip, by START, rounded up. A motoring start is at least the
draw; the other is the same at every step, and 0 with LOSS 0. The bounds are 6600 and 1500. -/
def Obligations.StartStepRule : Prop :=
  ∀ (c : Configuration) (d : Int) (v w : SpeedStep),
    -85 ≤ d → d ≤ 85 → c.full ≤ 2000 → c.loss ≤ 500 → 100 ≤ c.start → c.start ≤ 300 →
    (0 < d → steadyDraw c d v.percent * c.start ≤ 100 * (startStep c d v.percent : Int) ∧
      100 * (startStep c d v.percent : Int) < steadyDraw c d v.percent * c.start + 100 ∧
      steadyDraw c d v.percent ≤ startStep c d v.percent ∧ startStep c d v.percent ≤ 6600) ∧
    (d ≤ 0 → c.loss * c.start ≤ 100 * startStep c d v.percent ∧
      100 * startStep c d v.percent < c.loss * c.start + 100 ∧
      startStep c d v.percent = startStep c d w.percent ∧ (c.loss = 0 → startStep c d v.percent = 0) ∧
      startStep c d v.percent ≤ 1500)

/-- The declared maxima (R13): with D* = 125 − BAL, DMAX is LOSS and FULL × D* / 100 rounded up, GMAX is FULL × D* × RGS /
10000 rounded down less LOSS, held at 0. They lie within their own bounds and bound every run trip of the car (R14). -/
def Obligations.DeclaredMaximaBoundRuns : Prop :=
  ∀ (c : Configuration) (load : Nat) (dir : Direction) (v : SpeedStep),
    40 ≤ c.bal → c.bal ≤ 55 → 10 ≤ c.full → c.full ≤ 2000 → c.loss ≤ 500 → c.rgs ≤ 90 → load ≤ 125 →
    (∃ q, declaredDmax c = c.loss + q ∧ c.full * (125 - c.bal) ≤ 100 * q ∧
      100 * q < c.full * (125 - c.bal) + 100) ∧
    (∃ g : Nat, (declaredGmax c : Int) = max 0 ((g : Int) - c.loss) ∧ 10000 * g ≤ c.full * (125 - c.bal) * c.rgs ∧
      c.full * (125 - c.bal) * c.rgs < 10000 * g + 10000) ∧
    steadyDraw c (signedDemand c.bal load dir) v.percent ≤ declaredDmax c ∧
      -(steadyDraw c (signedDemand c.bal load dir) v.percent) ≤ declaredGmax c ∧
      7 ≤ declaredDmax c ∧ declaredDmax c ≤ 2200 ∧ declaredGmax c ≤ 1530

/-! ### Stamps, the roster and READ-STATION -/

/-- The ring of stamps (R30): the ring difference, the stamp next after, the newer-than relation with exactly one of two different
stamps the newer, no transitivity, and the order of entries with equal stamps and with stamp 0. -/
def Obligations.StampRing : Prop :=
  (∀ a b : Nat, 1 ≤ a → a ≤ 65535 → 1 ≤ b → b ≤ 65535 →
    (ringDiff a b : Int) = (if b ≤ a then (a : Int) - b else (a : Int) - b + 65535) ∧ ringDiff a b ≤ 65534 ∧
    (newerThan a b = true ↔ 1 ≤ ringDiff a b ∧ ringDiff a b ≤ 32767) ∧
    (a ≠ b → (newerThan a b = true ↔ newerThan b a = false)) ∧
    nextStamp a = (if a = 65535 then 1 else a + 1)) ∧
  (∃ a b c : Nat, newerThan a b = true ∧ newerThan b c = true ∧ newerThan c a = true) ∧
  (∀ (mark : Nat) (x y : Entry), x.station ≠ y.station →
    (x.stamp = y.stamp → (entryBefore mark x y = true ↔ y.station < x.station)) ∧
    (x.stamp ≠ 0 → y.stamp = 0 → entryBefore mark x y = true ∧ entryBefore mark y x = false))

/-- The stamp a CLAIM takes at its choice is newer than every stamp the roster holds, and so is the mark it leaves (R33). -/
def Obligations.ClaimStampIsNewest : Prop :=
  ∀ (s : State) (r : StationRecord), RosterSound s → r ∈ s.roster.records → r.stamp ≠ 0 →
    newerThan (nextStamp s.roster.mark) r.stamp = true ∧
      (offerStamp (nextStamp s.roster.mark) s.roster).mark = nextStamp s.roster.mark

/-- The end of an activity that is a valid message of another station, with nothing of the own on the line (R20, R23 to R26, R31,
R32, R73, R82, R96, R97, R100, R177, R178): its record takes what the message gives, the class carried, kept or inferred; the mark
takes a newer stamp, and then every stored stamp is floored; a CLAIM with S above 0 restarts a settle timer that is not STOPPED;
the filters judge it with origin LINE; the reference point counts from the last change to recessive. A roster change (R28) takes a
shed hold that waited for the last demand to CLEAR (R157) and in a driving state runs the shed test (R151), on which the own car
sheds (R154 to R156; said where the evaluation that follows does not end the trip). That it counts as heard at the instant of
recognition is the model's choice (logs 1 and 17). -/
def Obligations.HeardMessageReachesRoster : Prop :=
  ∀ (s : State) (changes : List LineChange) (reference : Nat) (u : LineUnit) (m : Message),
    s.line.active = true → configured s = true → s.line.transmitter = none → s.roster.isOpen = true →
    s.line.recognised changes = some (reference, u) → judgeActivity u = .ok m → m.station ≠ s.station →
    ∃ t x, exec (.endOfActivity changes) s = .next t ∧ t.now = max s.now (reference + 120) ∧
      t.line.active = false ∧ t.line.level = .recessive ∧ t.con.roundTimer = .running reference ∧
      t.roster.isOpen = true ∧
      t.roster.mark = (if offeredStamp m.body ≠ 0 ∧ (s.roster.mark = 0 ∨ newerThan (offeredStamp m.body) s.roster.mark)
        then offeredStamp m.body else s.roster.mark) ∧
      findRecord t.roster.records m.station = some x ∧ x.fresh = true ∧ x.heard = t.now ∧
      x.committed = m.body.draw ∧
      (∀ c, m.body = .claim c → x.cls = c.cls ∧ x.stamp = floored t.roster.mark c.stamp ∧ x.dmax = c.dmax ∧
        x.demand = none) ∧
      (∀ r, m.body = .release r → (r.draw = 0 → x.cls = 0 ∧ x.stamp = 0) ∧
        (r.draw ≠ 0 → x.stamp = floored t.roster.mark r.stamp ∧
          (∀ y, findRecord s.roster.records m.station = some y → y.cls ≠ 0 → x.cls = y.cls) ∧
          (∀ y, findRecord s.roster.records m.station = some y → y.cls = 0 → x.cls = inferredClass y.summary) ∧
          (findRecord s.roster.records m.station = none → x.cls = 2))) ∧
      (∀ p, m.body = .presence p → x.summary = some p.summary ∧ x.serviceSelected = p.serviceSelected ∧
        x.lockout = p.lockout ∧ x.shedPending = p.shedPending ∧ x.dmax = p.dmax ∧ x.gmax = p.gmax ∧
        x.stamp = floored t.roster.mark p.stamp ∧ x.demand = p.demand ∧
        (∀ y, findRecord s.roster.records m.station = some y → y.committed = p.committed → x.cls = y.cls) ∧
        ((∀ y, findRecord s.roster.records m.station = some y → y.committed ≠ p.committed) →
          x.cls = if p.committed = 0 then 0 else inferredClass (some p.summary))) ∧
      (∀ st : SeqState, inferredClass none = 2 ∧ inferredClass (some st) =
        if st = .parked ∨ st = .serviceWait ∨ st = .serviceRun ∨ st = .serviceIdle ∨ st = .shedPending then 5 else 2) ∧
      (∀ n, n ≠ m.station → findRecord t.roster.records n =
        (findRecord s.roster.records n).map fun y => { y with
          stamp := if t.roster.mark = s.roster.mark then y.stamp else floored t.roster.mark y.stamp }) ∧
      ((∃ c, m.body = .claim c ∧ 0 < c.start) ∧ s.supply.settle ≠ .stopped →
        t.supply = { s.supply with settle := .running t.now }) ∧
      (¬((∃ c, m.body = .claim c ∧ 0 < c.start) ∧ s.supply.settle ≠ .stopped) → t.supply = s.supply) ∧
      t.config = s.config ∧ t.pins = s.pins ∧ t.station = s.station ∧
      Observed s t m false ∧
      (¬RosterChange s.roster.records t.roster.records ∨ s.seq.state.driving = false →
        t.adm.shedView = s.adm.shedView) ∧
      (¬RosterChange s.roster.records t.roster.records → t.seq.shedHold = s.seq.shedHold) ∧
      (RosterChange s.roster.records t.roster.records →
        (s.seq.state.driving = false → t.seq.shedHold = (withRoster s t.roster).seq.shedHold) ∧
        (s.seq.state.driving = true → ShedViewed (withRoster s t.roster) t ∧
          (¬ShedsOwn (withRoster s t.roster) → t.seq.shedHold = (withRoster s t.roster).seq.shedHold) ∧
          ((∀ x, s.seq.trip = some x → x.phase = .pending ∨ x.phase = .armed → t.adm.view.outcome ≠ .exceeds) →
            ShedActed (withRoster s t.roster) t)))

/-- An invalid activity (R92, R94): the checks are made in the order long mark, FRAME mark, kind and length, CRC, fields, each
written out in Safety.lean, and the first that fails names the error; nothing of the activity reaches the roster, the supply
monitor or the observation queue; the last line error is that kind and LINE is raised. Its end is a reference point (R93,
R100): the trip record is evaluated (R46, R47, R54) and, in an open round with nothing spoken, the choice made (R107), its slot
counting from the reference. An activity that passes all five is a valid message. The instants are the model's clock (log 1). -/
def Obligations.InvalidActivityIsDiscarded : Prop :=
  (∀ (s : State) (changes : List LineChange) (reference : Nat) (u : LineUnit) (k : LineError),
    s.line.active = true → configured s = true → s.line.transmitter = none →
    s.line.recognised changes = some (reference, u) → FailsWith u k →
    ∃ t, exec (.endOfActivity changes) s = .next t ∧ t.line.active = false ∧ t.line.lastError = k ∧
      t.adm.conditions.line = true ∧ t.roster = s.roster ∧ t.supply = s.supply ∧ t.link.queue = s.link.queue ∧
      t.seq.duplicate = s.seq.duplicate ∧ t.con.roundTimer = .running reference ∧
      t.now = max s.now (reference + 120) ∧ t.config = s.config ∧ t.pins = s.pins ∧
      (s.seq.trip = none → t.adm.view = s.adm.view ∧ t.seq = s.seq) ∧
      (∀ x, s.seq.trip = some x → x.phase = .pending → s.seq.state ≠ .fallback → s.seq.state ≠ .isolated →
        Evaluated s t x) ∧
      (s.con.attempt = .none → s.con.roundOpen = true → s.con.spoken = false → s.seq.state.driving = true →
        Chosen reference s t) ∧
      (s.con.roundOpen = false ∨ s.con.spoken = true ∨ (s.seq.state.driving = false ∧ s.seq.trip = none) →
        t.con.attempt = s.con.attempt)) ∧
  (∀ (u : LineUnit) (k : LineError), FailsWith u k → judgeActivity u = .error k) ∧
  (∀ u : LineUnit, (∀ k, ¬FailsWith u k) → ∃ m, judgeActivity u = .ok m)

/-- A valid message that bears the own number and was not completed by this station (R95, R130): DUPLICATE, the duplicate flag and,
from a session state, ISOLATED with the car stopped, no trip, no standing and nothing on its way out; a waiting TRIP-CANCEL is
answered accepted and the shed-owed mark cleared (R164; the code in that reply: log 15). DORMANT and ISOLATED keep their state.
The roster keeps the message out and the filters take it (R177). -/
def Obligations.DuplicateIsolates : Prop :=
  (∀ (s : State) (changes : List LineChange) (reference : Nat) (u : LineUnit) (m : Message),
    s.line.active = true → s.seq.state.session = true → s.seq.state ≠ .isolated → s.line.transmitter = none →
    s.line.recognised changes = some (reference, u) → judgeActivity u = .ok m → m.station = s.station →
    ∃ t, exec (.endOfActivity changes) s = .next t ∧ t.adm.conditions.duplicate = true ∧ t.seq.duplicate = true ∧
      t.seq.state = .isolated ∧ t.seq.runp = false ∧ t.seq.spd = .p25 ∧ t.seq.shdn = false ∧ t.seq.emop = true ∧
      t.seq.trip = none ∧ t.seq.commitment = 0 ∧ t.seq.claimClass = 0 ∧ t.seq.stamp = 0 ∧ OutboundClear t ∧
      t.roster = s.roster ∧ t.config = s.config ∧ t.pins = s.pins ∧ DebtsSettled s t ∧ Observed s t m false) ∧
  (∀ (s : State) (changes : List LineChange) (reference : Nat) (u : LineUnit) (m : Message),
    s.line.active = true → (s.seq.state = .dormant ∨ s.seq.state = .isolated) → s.seq.trip = none →
    s.line.transmitter = none → s.line.recognised changes = some (reference, u) → judgeActivity u = .ok m →
    m.station = s.station →
    ∃ t, exec (.endOfActivity changes) s = .next t ∧ t.seq = { s.seq with duplicate := true } ∧
      t.adm = { s.adm with conditions := { s.adm.conditions with duplicate := true } } ∧ t.roster = s.roster ∧
      t.link.reply = s.link.reply ∧ t.config = s.config ∧ t.pins = s.pins ∧ Observed s t m false)

/-- The report interval (R22, R106): a FRESH record whose age reaches four of them goes STALE with every other field kept, and no other
record changes. That is a roster change (R28): a shed hold that waits while no record holds a demand is CLEAR (R157), and in a
driving state the shed test runs and acts on the own car (R151 to R157). A driving station that has completed nothing for one of
them makes PRESENCE due, and marks again one already in an attempt. The instants are the model's clock (log 1). -/
def Obligations.ReportIntervalRunsOut : Prop :=
  (∀ (s : State) (station : Nat) (r : StationRecord),
    findRecord s.roster.records station = some r → r.fresh = true →
    ∃ t, exec (.recordStale station) s = .next t ∧
      t.now = max s.now (r.heard + 4 * ((conf s).reportInterval * 100000)) ∧
      findRecord t.roster.records station = some { r with fresh := false } ∧
      (∀ n, n ≠ station → findRecord t.roster.records n = findRecord s.roster.records n) ∧
      t.roster.mark = s.roster.mark ∧ t.roster.isOpen = s.roster.isOpen ∧ t.config = s.config ∧ t.pins = s.pins ∧
      t.supply = s.supply ∧ t.line = s.line ∧
      (s.seq.state.driving = false → t.seq = (withRoster s t.roster).seq ∧ t.adm = s.adm ∧ t.con = s.con) ∧
      (s.seq.state.driving = true → ShedViewed (withRoster s t.roster) t ∧ ShedActed (withRoster s t.roster) t ∧
        (¬ShedsOwn (withRoster s t.roster) → t.seq = (withRoster s t.roster).seq ∧ t.con = s.con))) ∧
  (∀ (s : State) (since : Nat), s.con.presenceTimer = .running since → s.seq.state.driving = true →
    exec .presenceDueExpiry s = .next { s with
      now := max s.now (since + (conf s).reportInterval * 100000)
      con := { s.con with presenceTimer := .stopped, presenceDue := true
                          remarked := s.con.remarked || s.con.attempt.serves .presence } })

/-- READ-STATION (R34, R35, R36, R180). For 0: the counts, the mark, the next stamp, the largest demand and the stations of the
restoration order, newest first. From 1 to 62: the 17 octets of the own standing, of a record, or zeros for an unheard
station; how a part of 10 ms counts in an age is left open (log 8). Above 62: BAD_FIELD 1. Nothing but the car link changes. -/
def Obligations.ReadStationReply : Prop :=
  ∀ (s : State) (station : Byte), Taking s → RosterSound s →
    ∃ t order demand place, exec (.readStation station) s = .next t ∧ t = { s with link := t.link } ∧ LinkElse s t ∧
      IsRestorationOrder s order ∧ LargestDemand s.roster.records demand ∧ PlaceIn order station.toNat place ∧
      (62 < station.toNat → RefusedWith t .badField 1) ∧
      (station.toNat = 0 → AcceptedWith t
        ([octet (flag s.roster.isOpen), octet (conf s).census, octet s.roster.records.length,
          octet (s.roster.records.filter fun r => r.fresh).length,
          octet (s.roster.records.filter fun r => !r.fresh).length,
          octet ((conf s).census - 1 - s.roster.records.length)] ++
          word16 s.roster.mark ++ word16 (nextStamp s.roster.mark) ++
          [octet (flag demand.isSome)] ++ signed16 (demand.getD 0) ++ [octet order.length] ++
          order.map fun e => octet e.station)) ∧
      (1 ≤ station.toNat → station.toNat ≤ 62 →
        (station.toNat = s.station → AcceptedWith t
          ([3] ++ signed16 s.seq.commitment ++ [octet s.seq.claimClass] ++ word16 s.seq.stamp ++ [octet place] ++
            word16 (conf s).dmax ++ word16 (conf s).gmax ++ [octet s.seq.state.code,
              octet (flag s.seq.serviceSelected + 2 * flag s.seq.lockout + 4 * flag (s.seq.state == .shedPending) +
                8 * flag s.adm.ownDemand.isSome)] ++ signed16 (s.adm.ownDemand.getD 0) ++ [0, 0])) ∧
        (station.toNat ≠ s.station → ∀ r, findRecord s.roster.records station.toNat = some r →
          ∃ age, (age = (s.now - r.heard) / 10000 ∨ age = (s.now - r.heard + 9999) / 10000) ∧ AcceptedWith t
            ([if r.fresh then 1 else 2] ++ signed16 r.committed ++ [octet r.cls] ++ word16 r.stamp ++ [octet place] ++
              word16 r.dmax ++ word16 r.gmax ++ [octet ((r.summary.map SeqState.code).getD 0),
                octet (flag r.serviceSelected + 2 * flag r.lockout + 4 * flag r.shedPending +
                  8 * flag r.demand.isSome)] ++ signed16 (r.demand.getD 0) ++ word16 (min 65535 age))) ∧
        (station.toNat ≠ s.station → findRecord s.roster.records station.toNat = none →
          AcceptedWith t (List.replicate 17 0)))

/-! ### Admission and shedding -/

/-- The admission test: the sums over FRESH, STALE and unheard stations (R40 to R42), the steps searched (R48), the outcome in
the order of R50 with the settle check (R51): UNDECIDED, ADMIT or WAIT_SETTLE at the first step that fits, else
WAIT_HEADROOM or EXCEEDS by the floor step alone on the empty plant. At a reference point, here a round close, the view and
the conditions take it (R42, R45, R47), the patience timer follows it (R57), and EXCEEDS ends the trip (R54, R135). The
instants are the model's clock (log 1). -/
def Obligations.AdmissionDecides : Prop :=
  (∀ (s : State) (x : Trip) (mpos gneg : Nat),
    mpos = min 65535 ((s.roster.records.map fun r => if r.fresh then r.committed.toNat else r.dmax).sum +
      ((conf s).census - 1 - s.roster.records.length) * (conf s).phant) →
    gneg = min 65535 (s.roster.records.map fun r => if r.fresh then (-r.committed).toNat else r.gmax).sum →
    motoringSum s = mpos ∧ returningSum s = gneg ∧
    (∀ f, x.figures = .wake f → searchSteps s x = [(none, f)]) ∧
    (∀ a b c d, x.figures = .run a b c d → searchSteps s x =
      if x.cls ≤ 2 then
        (if s.seq.lockout then [(some .p25, a)] else [(some .p100, d), (some .p75, c), (some .p50, b), (some .p25, a)])
      else match (conf s).lspd with
        | .p25 => [(some .p100, d), (some .p75, c), (some .p50, b), (some .p25, a)]
        | .p50 => [(some .p100, d), (some .p75, c), (some .p50, b)]
        | .p75 => [(some .p100, d), (some .p75, c)]
        | .p100 => [(some .p100, d)]) ∧
    ((((conf s).unmaskStale = true ∧ ∃ r ∈ s.roster.records, r.fresh = false) ∨
        ((conf s).unmaskPhantom = true ∧ s.roster.records.length < (conf s).census - 1)) →
      decideTrip s x = { outcome := .undecided, offer := none }) ∧
    (¬(((conf s).unmaskStale = true ∧ ∃ r ∈ s.roster.records, r.fresh = false) ∨
        ((conf s).unmaskPhantom = true ∧ s.roster.records.length < (conf s).census - 1)) →
      (∀ before y after, searchSteps s x = before ++ y :: after → (∀ z ∈ before, ¬Fits s mpos gneg z.2) →
        Fits s mpos gneg y.2 →
        (SettledFor s x.cls → decideTrip s x = { outcome := .admitted, offer := some y }) ∧
        (¬SettledFor s x.cls → decideTrip s x = { outcome := .waitSettle, offer := none })) ∧
      ((∀ y ∈ searchSteps s x, ¬Fits s mpos gneg y.2) → ∀ above lowest, searchSteps s x = above ++ [lowest] →
        (Fits s 0 0 lowest.2 → decideTrip s x = { outcome := .waitHeadroom, offer := none }) ∧
        (¬Fits s 0 0 lowest.2 → decideTrip s x = { outcome := .exceeds, offer := none })))) ∧
  (∀ (s : State) (since : Nat) (x : Trip), s.con.roundTimer = .running since → s.seq.trip = some x →
    x.phase = .pending → s.seq.state ≠ .fallback → s.seq.state ≠ .isolated →
    ∃ t, exec .roundClose s = .next t ∧ Evaluated s t x ∧
      t.adm.conditions = { s.adm.conditions with
        stale := s.adm.conditions.stale || decide (∃ r ∈ s.roster.records, r.fresh = false)
        phantom := s.adm.conditions.phantom || decide (s.roster.records.length < (conf s).census - 1)
        saturate := s.adm.conditions.saturate || decide (motoringSum s = 65535 ∨ returningSum s = 65535) } ∧
      t.seq.runp = s.seq.runp ∧ t.seq.commitment = s.seq.commitment ∧ t.roster = s.roster ∧ t.supply = s.supply ∧
      t.config = s.config ∧ t.pins = s.pins)

/-- The shed excess is E = T + D − Cap (R152): T the announced draws, the own among them, held at 65535, D the largest evac
demand where it is above 0. The shed set is the shortest prefix of the candidates, newest first, whose draws cover the
excess, or all of them (R153); no candidate is of class 1 or 2, and with no excess the set is empty. -/
def Obligations.ShedSetIsShortestCover : Prop :=
  ∀ s : State,
    (∃ demand, LargestDemand s.roster.records demand ∧ shedExcess s =
      ((min 65535 (s.seq.commitment.toNat + (s.roster.records.map fun r => r.committed.toNat).sum) : Nat) : Int) +
        max 0 (demand.getD 0) - s.supply.capHeld) ∧
    (shedExcess s ≤ 0 → shedSet s = []) ∧
    (∀ e, e ∈ shedCandidates s ↔ e ∈ restorationOrder s ∧ 0 < e.draw ∧ e.cls ≠ 1 ∧ e.cls ≠ 2) ∧
    (shedCandidates s).Sublist (restorationOrder s) ∧
    (0 < shedExcess s → ∃ rest, shedCandidates s = shedSet s ++ rest ∧
      (rest ≠ [] → shedExcess s ≤ ((shedSet s).map Entry.draw).sum) ∧
      (shedSet s ≠ [] → (((shedSet s).dropLast).map Entry.draw).sum < shedExcess s))

/-! ### Laws that every step keeps -/

/-- The columns RUNP, SPD, EMOP, SHDN and roster of the table of R118, and of its own commitment the zeros outside the driving
states, hold at every step, with RUNP negated and every unit at its reset value until RESET is released (R132, log 21), and with the
laws of R136: under emergency supply RUNP stands only for the RUNNING record, SPD at
that record's admitted step, 25 in FALLBACK; and nothing is on its way out outside the driving states (R116). -/
def Obligations.SoundKept : Prop := ∀ s t : State, Sound s → step s = .next t → Sound t

/-- A CLAIM never waits for its slot, and so never begins, while the RELEASE slot holds a message (R107). -/
def Obligations.ReleaseFirstKept : Prop := ∀ s t : State, ReleaseFirst s → step s = .next t → ReleaseFirst t

/-- A station that has spoken has no attempt in hand until the round closes (R102). -/
def Obligations.SpokenWaitsKept : Prop := ∀ s t : State, SpokenWaits s → step s = .next t → SpokenWaits t

/-- The observation queue never holds more than 16 entries (R178). -/
def Obligations.QueueBoundedKept : Prop := ∀ s t : State, QueueBounded s → step s = .next t → QueueBounded t

/-- The roster keeps its canonical form: one record a station, none for the own, every stamp within the floor (R18, R32). -/
def Obligations.RosterSoundKept : Prop := ∀ s t : State, RosterSound s → step s = .next t → RosterSound t

/-- The state after reset meets every law that every step keeps. It is State.reset, whose pins and straps are the model's choice
(log 4), that this says it of. -/
def Obligations.ResetMeetsTheLaws : Prop :=
  Sound State.reset ∧ ReleaseFirst State.reset ∧ SpokenWaits State.reset ∧ QueueBounded State.reset ∧
    RosterSound State.reset

/-- What the law of R136 says of a sound state: while TRN reads emergency, RUNP is asserted only while the own trip record is
RUNNING. -/
def Obligations.PermitOnlyWhileRunning : Prop :=
  ∀ s : State, Sound s → s.supply.trn = .emergency → s.seq.runp = true → tripIn .running s = true

/-- A valid message is read as it was sent (R79 to R82, R84, R88, R92): driven bit by bit from an edge on a quiet line by another
station, or by the own transmitter alone, the receiver samples its octets and no other, marks nothing, recognises the end 12
bit times after a change inside the last octet, and the judging gives back every field of R88. -/
def Obligations.LineMessageRoundTrip : Prop :=
  ∀ (m : Message) (u : LineUnit) (n : Nat), m.valid → u.active = false → u.awaitingGap = false →
    u.level = .recessive → u.others = .recessive → u.transmitter = none → u.follows = true → u.coming = [] → u.readTo ≤ n →
    (∃ reference v, (u.edgeNow n).recognised (bitChanges (encodeMessage m)) = some (reference, v) ∧
      v.octets = encodeMessage m ∧ v.octetCount = (encodeMessage m).length ∧ v.frameMark = false ∧
      v.longMark = false ∧ judgeActivity v = .ok m ∧
      n + 100 * ((encodeMessage m).length - 1) < reference ∧ reference ≤ n + 100 * (encodeMessage m).length - 10) ∧
    (∃ reference v, (u.begin { octets := encodeMessage m, startedAt := n }).recognised [] = some (reference, v) ∧
      completesOwn v { octets := encodeMessage m, startedAt := n } = true ∧
      n + 100 * ((encodeMessage m).length - 1) < reference ∧ reference ≤ n + 100 * (encodeMessage m).length - 10)

/-! ### Resets and the requests that configure and read -/

/-- A cold reset (R132, R18, R43, R47, R77, R98, R99, R119, R134, R157, R169, R177, R178): the configuration is discarded, the
straps are sampled, the sequencer is UNCONFIGURED, and every field of every unit takes its cold-reset value, written out here.
While RESET is held RUNP is negated; when it is released RUNP and SPD go by TRN (log 21). The other pins are as they were, and the
line, at the level the others have left on it by now, is read anew from the reset on (R79, logs 5 and 18). The model's State.reset
is the state it leaves with straps 1 on the pins the model chose (log 4). -/
def Obligations.ColdResetResult : Prop :=
  exec (.coldReset ⟨1, .released⟩) State.reset = .next State.reset ∧
  ∀ (straps : BitVec 6) (reset : ResetReading) (s : State), ∃ t, exec (.coldReset ⟨straps, reset⟩) s = .next t ∧
    t.config = none ∧ t.station = straps.toNat ∧ t.pins = { s.pins with reset := reset } ∧
    t.seq = {
      state := .unconfigured, runp := reset == .released && s.pins.trn == .normal
      spd := if reset = .released ∧ s.pins.trn = .normal then .p100 else .p25
      shdn := false, emop := false, commitment := 0, claimClass := 0, stamp := 0, tripCounter := 0, lastTripId := 0
      serviceSelected := false, lockout := false, occupancy := false, duplicate := false, occupancyHold := .stopped
      firstTakeover := true, sessionOrigin := none, report := { position := .lost, landing := 0, fresh := false }
      startWindow := .stopped, startWindowLength := 0, joinTimer := .stopped, runTimer := .stopped
      dwellTimer := .stopped, idleTimer := .stopped, agingTimer := .stopped, shedHold := .clear, shedOwed := false
      landedMark := false, trip := none, lastClaim := none } ∧
    t.adm = {
      conditions := {
        stale := false, phantom := false, range := false, saturate := false, line := false, duplicate := false
        overtime := false }
      view := {
        tripId := 0, outcome := .none, step := none, mpos := 0, gneg := 0, cap := 0, stepMax := 0, unheard := 0
        stale := 0, exceeded := false }
      shedView := { excess := 0, size := 0, own := false }, patience := .stopped, ownDemand := none } ∧
    t.supply = {
      trn := s.pins.trn, trnTimer := .stopped, gok := s.pins.gok, gokTimer := .stopped, capCode := s.pins.cap
      candidate := none, capTimer := .stopped, freqClass := .absent, train := none, absenceTimer := .stopped
      inWindowTimer := .stopped, inWindowHalf := false, settle := .stopped, derate := 0, episodeMark := false
      underTimer := .stopped, holdTimer := .stopped, capHeld := 0 } ∧
    t.roster = { isOpen := false, records := [], mark := 0 } ∧
    LineAnew s.line t.line s.now ∧
    t.con = {
      roundOpen := false, roundTimer := .stopped, spoken := false, attempt := .none, key := 0, slotDeadline := none
      failures := 0, presenceTimer := .stopped, releaseSlot := none, superseded := false, claimSlot := none
      withdrawn := false, presenceDue := false, remarked := false } ∧
    t.link = {
      receiver := .idle, reply := .none, reason := .none, detail := 0, attention := true
      accept := { pattern := 0, care := 0, kinds := 0 }, reject := { pattern := 0, care := 0, kinds := 0 }
      queue := [], overrun := false }

/-- CONFIGURE, judged by the table of R173, which Safety.lean writes out: octets and order of the fields, accepted values,
defaults that zero selects. Accepted (R172, R13, R70, R120, R177): every field is stored with the maxima, Cap is formed, the
filters are taken, and the state is DORMANT under utility supply, else a session begins now with a 60 s window. Refused, in the
order of R172: ALREADY_CONFIGURED in every state but UNCONFIGURED; BAD_STATION for straps 0 and 63; BAD_FIELD for the first
bad field, or 20 for a run limit above half of W; BAD_STATION above CENSUS. A refused one stores nothing. -/
def Obligations.ConfigureJudged : Prop :=
  (∀ (s : State) (record : List Byte), linkReady s = true → s.seq.state = .unconfigured → record.length = 42 →
    s.station ≠ 0 → s.station ≠ 63 → FieldsAccepted record → 2 * recordValue record 20 ≤ recordValue record 23 →
    s.station ≤ recordValue record 13 →
    ∃ t c, exec (.configure record) s = .next t ∧ t.config = some c ∧ StoresRecord record c ∧
      t.supply.capHeld = (s.supply.capCode.val - s.supply.derate) * recordValue record 8 - recordValue record 9 ∧
      FilterOf record 27 t.link.accept ∧ FilterOf record 30 t.link.reject ∧
      (s.supply.trn = .normal → t.seq.state = .dormant ∧ t.seq.runp = true ∧ t.seq.spd = .p100) ∧
      (s.supply.trn = .emergency → t.seq.runp = false ∧ t.seq.spd = .p25 ∧ t.seq.emop = true ∧
        t.seq.firstTakeover = false ∧ t.seq.sessionOrigin = some s.now ∧
        (s.supply.good = true → t.seq.state = .joining) ∧
        (s.supply.good = false → t.seq.state = .awaitSupply ∧ t.seq.startWindow = .running s.now ∧
          t.seq.startWindowLength = 60000000)) ∧
      AcceptedWith t (octet s.station :: word16 c.dmax ++ word16 c.gmax ++ [octet t.seq.state.code]) ∧
      NoReason t ∧ t.link.attention = true ∧ t.station = s.station ∧ t.pins = s.pins ∧ t.line = s.line ∧
      t.link.queue = s.link.queue) ∧
  (∀ (s : State) (record : List Byte), linkReady s = true → record.length = 42 →
    ∃ t, exec (.configure record) s = .next t ∧
      (s.seq.state ≠ .unconfigured →
        RefusedWith t .alreadyConfigured 0 ∧ LinkElse s t ∧ t = { s with link := t.link }) ∧
      (s.seq.state = .unconfigured → s.station = 0 ∨ s.station = 63 →
        RefusedWith t .badStation s.station ∧ LinkElse s t ∧ t = { s with link := t.link }) ∧
      (s.seq.state = .unconfigured → s.station ≠ 0 → s.station ≠ 63 →
        (∀ k, FirstBadIndex record k → RefusedWith t .badField k ∧ LinkElse s t ∧ t = { s with link := t.link }) ∧
        (FieldsAccepted record → recordValue record 23 < 2 * recordValue record 20 →
          RefusedWith t .badField 20 ∧ LinkElse s t ∧ t = { s with link := t.link }) ∧
        (FieldsAccepted record → 2 * recordValue record 20 ≤ recordValue record 23 →
          recordValue record 13 < s.station →
          RefusedWith t .badStation s.station ∧ LinkElse s t ∧ t = { s with link := t.link })))

/-- QUERY (R174): ATTENTION is cleared and the reply carries the 58 octets of the summaries, written out here in their order; nothing
else of the block changes but the model's count of free values (log 9). With no trip record octets 19 and 20 may be anything (log
9); a part of a unit of time is dropped or counts as one (log 8); octet 46 before a CONFIGURE is the choice of log 10, octets 9
and 10 at an opening that of log 29. That the reply itself shows ATTENTION 0 is log 46. -/
def Obligations.QueryReply : Prop :=
  ∀ s : State, linkReady s = true →
    ∃ t window hold opening inWindow id cls, exec .query s = .next t ∧ t.link.attention = false ∧ NoReason t ∧
      LinkElse s t ∧ t = { s with link := t.link, freeCount := t.freeCount } ∧
      (∀ since, s.seq.state = .awaitSupply → s.seq.startWindow = .running since →
        CountsUnits 100000 (s.seq.startWindowLength - (s.now - since)) window) ∧
      (s.seq.state ≠ .awaitSupply ∨ s.seq.startWindow = .stopped → window = 0) ∧
      (∀ since, s.seq.shedHold = .timing since →
        CountsUnits 100000 ((conf s).holdTime * 1000000 - (s.now - since)) hold) ∧
      ((∀ since, s.seq.shedHold ≠ .timing since) → hold = 0) ∧
      (s.seq.state = .fallback → CountsUnits 100000 (timeToOpening s) opening) ∧
      (s.seq.state ≠ .fallback → opening = 0) ∧
      (∀ since, s.supply.inWindowTimer = .running since →
        CountsUnits 10000 (min 65535000 (s.now - since)) inWindow) ∧
      (s.supply.inWindowTimer = .stopped → inWindow = 0) ∧
      (∀ x, s.seq.trip = some x → id = octet x.id.val ∧ cls = octet x.cls) ∧
      AcceptedWith t (
        [octet s.seq.state.code,
          octet (flag s.seq.runp + 2 * s.seq.spd.code + 8 * flag s.seq.shdn + 16 * flag s.seq.emop),
          octet (flag s.seq.lockout + 2 * flag s.seq.occupancy + 4 * flag s.seq.serviceSelected +
            8 * flag s.seq.duplicate + 16 * flag s.seq.firstTakeover +
            32 * flag (s.seq.state == .fallback && s.seq.landedMark) + 64 * flag s.seq.shedOwed +
            128 * flag s.seq.report.fresh),
          octet ((match s.seq.shedHold with
              | .clear => 0
              | .timing _ => 1
              | .awaitDemand => 2) +
            4 * flag (s.seq.state == .fallback && windowOpen s) +
            8 * flag (s.seq.state == .fallback && firstHalfOpen s))] ++
        word16 window ++ word16 hold ++ word16 (min 65535 opening) ++
        [octet s.seq.report.position.code, s.seq.report.landing] ++
        signed16 s.seq.commitment ++ [octet s.seq.claimClass] ++ word16 s.seq.stamp ++
        [(match s.seq.trip.map Trip.phase with
            | none => 0
            | some .pending => 1
            | some .armed => 2
            | some .running => 3
            | some .ending => 4), id, cls] ++
        [octet s.adm.view.tripId.val,
          (match s.adm.view.outcome with
            | .none => 0
            | .undecided => 1
            | .exceeds => 2
            | .waitHeadroom => 3
            | .waitSettle => 4
            | .admitted => 5),
          octet ((s.adm.view.step.map SpeedStep.percent).getD 0)] ++
        word16 s.adm.view.mpos ++ word16 s.adm.view.gneg ++ word16 s.adm.view.cap ++ word16 s.adm.view.stepMax ++
        [octet s.adm.view.unheard, octet s.adm.view.stale, if s.adm.view.exceeded then 7 else 0] ++
        signed32 s.adm.shedView.excess ++ [octet s.adm.shedView.size, octet (flag s.adm.shedView.own)] ++
        [octet (flag s.adm.conditions.stale + 2 * flag s.adm.conditions.phantom + 4 * flag s.adm.conditions.range +
            8 * flag s.adm.conditions.saturate + 16 * flag s.adm.conditions.line +
            32 * flag s.adm.conditions.duplicate + 64 * flag s.adm.conditions.overtime),
          (match s.line.lastError with
            | .none => 0
            | .longDominant => 1
            | .frame => 2
            | .length => 3
            | .crc => 4
            | .field => 5),
          octet (flag (s.supply.trn == .emergency) + 2 * flag (s.supply.gok == .asserted) +
            4 * flag (s.supply.gok == .asserted && s.supply.freqClass == .inWindow) +
            8 * flag (s.supply.gok == .negated || s.supply.freqClass == .absent) +
            16 * flag (s.supply.settle == .expired && s.supply.inWindowHalf) +
            32 * flag (s.supply.settle == .expired && s.supply.inWindowHalf && s.supply.holdTimer == .stopped) +
            64 * flag (s.supply.holdTimer != .stopped)),
          octet s.supply.capCode.val, octet s.supply.derate,
          octet (if s.seq.state = .unconfigured then 0 else s.supply.capCode.val - s.supply.derate)] ++
        word16 s.supply.capHeld ++
        [(match s.supply.freqClass with
            | .absent => 0
            | .inWindow => 1
            | .offWindow => 2
            | .under => 3),
          octet (min 255 inWindow),
          (match s.supply.settle with
            | .stopped => 0
            | .running _ => 1
            | .expired => 2),
          octet (flag s.con.roundOpen + 2 * flag s.con.spoken +
            (match s.con.attempt with
              | .none => 0
              | .waiting (.release _) => 4 + 16
              | .waiting (.claim _) => 4 + 32
              | .waiting (.presence _) => 4 + 48
              | .sending (.release _) => 8 + 16
              | .sending (.claim _) => 8 + 32
              | .sending (.presence _) => 8 + 48))] ++
        word16 s.con.key ++
        [octet (flag s.con.releaseSlot.isSome + 2 * flag s.con.superseded + 4 * flag s.con.claimSlot.isSome +
            8 * flag s.con.withdrawn + 16 * flag s.con.presenceDue + 32 * flag s.con.remarked),
          octet s.con.failures, octet s.link.queue.length, octet (flag s.link.overrun)])

/-- SENSE reads the held reason, its detail and the last line error and changes none of them (R175); CLEAR-CONDITIONS lowers the seven
flags, sets the last line error to NONE, keeps the duplicate flag and tells what stood before (R176). -/
def Obligations.SenseAndClearReplies : Prop :=
  (∀ s : State, linkReady s = true →
    ∃ t, exec .sense s = .next t ∧
      AcceptedWith t [octet s.link.reason.code, octet s.link.detail, octet s.line.lastError.code] ∧
      t.link.reason = s.link.reason ∧ t.link.detail = s.link.detail ∧ t.link.attention = s.link.attention ∧
      LinkElse s t ∧ t = { s with link := t.link }) ∧
  (∀ s : State, Taking s →
    ∃ t, exec .clearConditions s = .next t ∧
      AcceptedWith t [octet s.adm.conditions.octet, octet s.line.lastError.code] ∧
      t.adm.conditions = {
        stale := false, phantom := false, range := false, saturate := false, line := false, duplicate := false,
        overtime := false } ∧ t.line.lastError = .none ∧
      t.seq = s.seq ∧ NoReason t ∧ t.link.attention = s.link.attention ∧ LinkElse s t ∧
      t = { s with adm := { s.adm with conditions := t.adm.conditions }, link := t.link,
                   line := { s.line with lastError := t.line.lastError } })

/-- READ-OBSERVED gives up the oldest entry (R178, R179); the removal that empties the queue clears overrun. -/
def Obligations.ReadObservedGivesOldest : Prop :=
  ∀ s : State, Taking s →
    ∃ t, exec .readObserved s = .next t ∧ t = { s with link := t.link } ∧ NoReason t ∧
      t.link.accept = s.link.accept ∧ t.link.reject = s.link.reject ∧ t.link.attention = s.link.attention ∧
      (s.link.queue = [] → t.link.queue = [] ∧ t.link.overrun = s.link.overrun ∧
        AcceptedWith t [0, octet (flag s.link.overrun)]) ∧
      (∀ o rest, s.link.queue = o :: rest → t.link.queue = rest ∧
        (rest ≠ [] → t.link.overrun = s.link.overrun) ∧ (rest = [] → t.link.overrun = false) ∧
        AcceptedWith t ([octet rest.length, octet (flagBit s.link.overrun 0 + flagBit o.own 1),
          octet (o.kind.code * 16 + o.cls * 2), octet o.station, o.tag] ++ signed16 o.draw ++ word16 o.stamp ++
          word16 (o.start.getD 0)))

/-- RESTART (R131, R181): every field of the sequencer, the admission unit, the supply monitor, the roster, the line unit and the
contention unit takes its reset value, written out here; the configuration, the filters and the station number are kept, the
queue and the held reason cleared; the state is DORMANT or, under emergency supply, AWAIT_SUPPLY with 60 s from now. The line
is read anew from the reset on (log 18). -/
def Obligations.RestartResult : Prop :=
  ∀ s : State, Taking s →
    ∃ t, exec .restart s = .next t ∧ t.config = s.config ∧ t.station = s.station ∧ t.pins = s.pins ∧ t.now = s.now ∧
      t.link.accept = s.link.accept ∧ t.link.reject = s.link.reject ∧ t.link.queue = [] ∧ t.link.overrun = false ∧
      NoReason t ∧ t.link.attention = true ∧ AcceptedWith t [octet t.seq.state.code] ∧
      t.seq = {
        state := if s.pins.trn = .normal then .dormant else .awaitSupply
        runp := s.pins.trn == .normal, spd := if s.pins.trn = .normal then .p100 else .p25
        shdn := false, emop := s.pins.trn == .emergency, commitment := 0, claimClass := 0, stamp := 0
        tripCounter := 0, lastTripId := 0, serviceSelected := false, lockout := false, occupancy := false
        duplicate := false, occupancyHold := .stopped, firstTakeover := s.pins.trn == .normal
        sessionOrigin := if s.pins.trn = .normal then none else some s.now
        report := { position := .lost, landing := 0, fresh := false }
        startWindow := if s.pins.trn = .normal then .stopped else .running s.now
        startWindowLength := if s.pins.trn = .normal then 0 else 60000000
        joinTimer := .stopped, runTimer := .stopped, dwellTimer := .stopped, idleTimer := .stopped
        agingTimer := .stopped, shedHold := .clear, shedOwed := false, landedMark := false, trip := none
        lastClaim := none } ∧
      t.adm = {
        conditions := {
          stale := false, phantom := false, range := false, saturate := false, line := false, duplicate := false
          overtime := false }
        view := {
          tripId := 0, outcome := .none, step := none, mpos := 0, gneg := 0, cap := 0, stepMax := 0, unheard := 0
          stale := 0, exceeded := false }
        shedView := { excess := 0, size := 0, own := false }, patience := .stopped, ownDemand := none } ∧
      t.supply = {
        trn := s.pins.trn, trnTimer := .stopped, gok := s.pins.gok, gokTimer := .stopped, capCode := s.pins.cap
        candidate := none, capTimer := .stopped, freqClass := .absent, train := none, absenceTimer := .stopped
        inWindowTimer := .stopped, inWindowHalf := false, settle := .stopped, derate := 0, episodeMark := false
        underTimer := .stopped, holdTimer := .stopped
        capHeld := s.pins.cap.val * (conf s).sstep - (conf s).rsv } ∧
      t.roster = { isOpen := false, records := [], mark := 0 } ∧
      LineAnew s.line t.line s.now ∧
      t.con = {
        roundOpen := false, roundTimer := .stopped, spoken := false, attempt := .none, key := 0, slotDeadline := none
        failures := 0, presenceTimer := .stopped, releaseSlot := none, superseded := false, claimSlot := none
        withdrawn := false, presenceDue := false, remarked := false }

/-! ### The requests that act on the car -/

/-- CAR-REPORT accepted (R125, R126, R128): the report, the occupancy and the lockout follow it in every state; an evacuation record in
hand is of class 1 once the car is reported occupied, with ATTENTION where its class changes (R126, R134). In ASSESS, and in
EVAC_WAIT with no record, a car at a landing gets the wake trip of R12 and its claim (R127); in FALLBACK a first report at a
landing creates the wake record, which starts in the first half of the own window, and BETWEEN or LOST clears the landed mark
(R160, R161; that it starts in the creating step is log 27, and its origin FALLBACK, which the table of R134 does not have, is
log 23; a creation at the very instant at which that half closes is log 43). Refused for a bad field (R125), nothing changes. -/
def Obligations.CarReportTaken : Prop :=
  (∀ (s : State) (position landing occupancy : Byte) (p : Position), Taking s →
    positionOf position = some p → occupancy.toNat ≤ 1 →
    ∃ t, exec (.carReport position landing occupancy 0) s = .next t ∧
      AcceptedWith t [octet t.seq.state.code] ∧ NoReason t ∧ LinkElse s t ∧
      t.seq.report = { position := p, landing := landing, fresh := true } ∧
      (occupancy = 1 → t.seq.occupancy = true ∧ t.seq.occupancyHold = .running s.now) ∧
      (occupancy = 0 → t.seq.occupancy = s.seq.occupancy ∧ t.seq.occupancyHold = s.seq.occupancyHold) ∧
      (t.seq.trip ≠ s.seq.trip → t.link.attention = true) ∧
      (p = .atLanding → t.seq.lockout = false) ∧ (p = .lost → t.seq.lockout = true) ∧
      (p = .between → t.seq.lockout = s.seq.lockout) ∧
      t = { s with seq := t.seq, adm := t.adm, con := t.con, link := t.link } ∧
      (s.seq.state ≠ .fallback → t.seq = { s.seq with
        state := t.seq.state, shdn := t.seq.shdn, report := t.seq.report, occupancy := t.seq.occupancy
        occupancyHold := t.seq.occupancyHold, lockout := t.seq.lockout, trip := t.seq.trip
        tripCounter := t.seq.tripCounter, lastTripId := t.seq.lastTripId }) ∧
      t.con = { s.con with claimSlot := t.con.claimSlot, presenceDue := t.con.presenceDue, remarked := t.con.remarked } ∧
      (s.seq.state ≠ .assess → t.seq.state = s.seq.state) ∧
      (s.seq.state ≠ .assess → s.seq.state ≠ .evacWait → s.seq.state ≠ .fallback →
        t.seq.trip = s.seq.trip.map (reclassed occupancy) ∧
        t.seq.tripCounter = s.seq.tripCounter ∧ t.con.claimSlot = s.con.claimSlot ∧ t.adm = s.adm) ∧
      (s.seq.state = .assess → t.seq.state = .evacWait) ∧
      ((s.seq.state = .assess ∨ s.seq.state = .evacWait) → s.seq.trip = none → p = .atLanding →
        t.seq.trip = some { id := s.seq.tripCounter, purpose := .evacuation
                            cls := if t.seq.occupancy then 1 else 2
                            origin := if s.seq.state = .assess then .assess else .evacWait
                            figures := .wake { draw := ((conf s).stby : Int), start := (conf s).stby } } ∧
        t.con.claimSlot = some { kind := .wake, tripId := s.seq.tripCounter } ∧
        t.seq.tripCounter = s.seq.tripCounter + 1) ∧
      ((s.seq.state = .assess ∨ s.seq.state = .evacWait) → s.seq.trip ≠ none ∨ p ≠ .atLanding →
        t.seq.trip = s.seq.trip.map (reclassed occupancy) ∧
        t.seq.tripCounter = s.seq.tripCounter ∧ t.con.claimSlot = s.con.claimSlot ∧ t.adm = s.adm) ∧
      (s.seq.state = .fallback → t.con = s.con ∧ t.seq.runp = s.seq.runp ∧ t.seq.spd = s.seq.spd ∧
        t.seq.landedMark = (p == .atLanding && (s.seq.landedMark || s.seq.trip.isNone)) ∧
        (p ≠ .atLanding ∨ s.seq.landedMark = true ∨ s.seq.trip ≠ none →
          t.seq.trip = s.seq.trip.map (reclassed occupancy) ∧
          t.seq.tripCounter = s.seq.tripCounter ∧ t.seq.commitment = s.seq.commitment) ∧
        (p = .atLanding → s.seq.landedMark = false → s.seq.trip = none →
          t.seq.tripCounter = s.seq.tripCounter + 1 ∧ t.seq.lastTripId = s.seq.tripCounter ∧
          (firstHalfOpen s = false → t.seq.commitment = s.seq.commitment ∧
            t.seq.trip = some { id := s.seq.tripCounter, purpose := .evacuation
                                cls := if t.seq.occupancy then 1 else 2, origin := .fallback
                                figures := .wake { draw := ((conf s).stby : Int), start := (conf s).stby } }) ∧
          (firstHalfOpen s = true → t.seq.trip = none ∧ t.seq.commitment = ((conf s).stby : Int) ∧
            t.seq.claimClass = (if t.seq.occupancy then 1 else 2) ∧ t.seq.stamp = 0)))) ∧
  (∀ (s : State) (position landing occupancy reserved : Byte), Taking s →
    (positionOf position = none ∨ 1 < occupancy.toNat ∨ reserved ≠ 0) →
    ∃ t, exec (.carReport position landing occupancy reserved) s = .next t ∧
      RefusedWith t .badField
        (if positionOf position = none then 1 else if 1 < occupancy.toNat then 3 else 4) ∧
      LinkElse s t ∧ t = { s with link := t.link })

/-- TRIP-REQUEST. Accepted (R138, R139, R134, R11, R4 with RANGE masked or a load of at most 125): in EVAC_WAIT an evacuation run, in SERVICE_IDLE a
service run that moves to SERVICE_WAIT; the record is PENDING with the figures of the load, held at 125, and its claim is
posted. Refused in the order of R138: state, record, lockout, direction, load under an unmasked RANGE, reserved field. In
FALLBACK (R160, R161) a record with no claim, which starts at 25 in the first half of the own window (in the creating step:
log 27; a creation at the very instant at which that half closes: log 43). -/
def Obligations.TripRequestJudged : Prop :=
  (∀ (s : State) (direction load : Byte) (dir : Direction), Taking s → directionOf direction = some dir →
    s.seq.trip = none → ((conf s).unmaskRange = false ∨ load.toNat ≤ 125) →
    (s.seq.state = .evacWait ∨ (s.seq.state = .serviceIdle ∧ s.seq.lockout = false)) →
    ∃ t x, exec (.tripRequest direction load 0) s = .next t ∧ t.seq.trip = some x ∧
      x.id = s.seq.tripCounter ∧ x.phase = .pending ∧ x.cancel = false ∧ x.step = none ∧
      x.figures = runFigures (conf s) (signedDemand (conf s).bal (min 125 load.toNat) dir) ∧
      t.seq.tripCounter = s.seq.tripCounter + 1 ∧ t.seq.lastTripId = s.seq.tripCounter ∧
      t.con.claimSlot = some { kind := .run, tripId := s.seq.tripCounter } ∧
      t.adm.conditions.range = (s.adm.conditions.range || decide (125 < load.toNat)) ∧
      t.adm.view = { tripId := s.seq.tripCounter } ∧ t.link.attention = true ∧ NoReason t ∧ LinkElse s t ∧
      AcceptedWith t [octet x.id.val, octet x.cls, octet t.seq.state.code] ∧
      (s.seq.state = .evacWait → t.seq.state = .evacWait ∧ x.purpose = .evacuation ∧ x.origin = .evacWait ∧
        x.cls = (if s.seq.occupancy then 1 else 2) ∧ t.seq.idleTimer = s.seq.idleTimer) ∧
      (s.seq.state = .serviceIdle → t.seq.state = .serviceWait ∧ x.purpose = .service ∧ x.origin = .serviceIdle ∧
        x.cls = (if s.seq.serviceSelected then 4 else 5) ∧ t.seq.idleTimer = .stopped ∧
        t.seq.agingTimer = .running s.now ∧ t.con.presenceDue = true) ∧
      t.seq = { s.seq with
        state := t.seq.state, shdn := t.seq.shdn, trip := t.seq.trip, tripCounter := t.seq.tripCounter
        lastTripId := t.seq.lastTripId, idleTimer := t.seq.idleTimer, agingTimer := t.seq.agingTimer } ∧
      (s.seq.state = .evacWait → t.seq.agingTimer = s.seq.agingTimer) ∧
      t.con = { s.con with claimSlot := t.con.claimSlot, presenceDue := t.con.presenceDue, remarked := t.con.remarked } ∧
      t.adm = { s.adm with view := t.adm.view, conditions := { s.adm.conditions with range := t.adm.conditions.range } } ∧
      t = { s with seq := t.seq, adm := t.adm, con := t.con, link := t.link }) ∧
  (∀ (s : State) (direction load reserved : Byte), Taking s →
    ∃ t, exec (.tripRequest direction load reserved) s = .next t ∧ LinkElse s t ∧
      (s.seq.state = .isolated → RefusedWith t .isolated 0 ∧ t = { s with link := t.link }) ∧
      (s.seq.state = .dormant ∨ s.seq.state = .awaitSupply ∨ s.seq.state = .noSupply ∨ s.seq.state = .joining ∨
        s.seq.state = .assess ∨ s.seq.state = .landed ∨ s.seq.state = .parked →
        RefusedWith t .wrongState s.seq.state.code ∧ t = { s with link := t.link }) ∧
      (∀ x, s.seq.trip = some x →
        (s.seq.state = .evacRun ∨ s.seq.state = .serviceWait ∨ s.seq.state = .serviceRun ∨
          s.seq.state = .shedPending ∨ s.seq.state = .fallback →
          RefusedWith t .tripActive x.id.val ∧ t = { s with link := t.link }) ∧
        (s.seq.state = .evacWait ∨ s.seq.state = .serviceIdle →
          (x.phase = .ending → AnsweredBusy t ∧ t = { s with link := t.link }) ∧
          (x.phase ≠ .ending → RefusedWith t .tripActive x.id.val ∧ t = { s with link := t.link }))) ∧
      (s.seq.state = .serviceIdle → s.seq.trip = none → s.seq.lockout = true →
        RefusedWith t .positionLost 0 ∧ t = { s with link := t.link }) ∧
      (s.seq.trip = none → (s.seq.state = .evacWait ∨ (s.seq.state = .serviceIdle ∧ s.seq.lockout = false) ∨
          s.seq.state = .fallback) →
        (directionOf direction = none → RefusedWith t .badField 1 ∧ t = { s with link := t.link }) ∧
        (directionOf direction ≠ none → 125 < load.toNat → (conf s).unmaskRange = true →
          RefusedWith t .badField 2 ∧ t.adm.conditions = { s.adm.conditions with range := true } ∧
          t = { s with adm := { s.adm with conditions := t.adm.conditions }, link := t.link }) ∧
        (directionOf direction ≠ none → (load.toNat ≤ 125 ∨ (conf s).unmaskRange = false) → reserved ≠ 0 →
          RefusedWith t .badField 3 ∧ t.adm.conditions.range = (s.adm.conditions.range || decide (125 < load.toNat)) ∧
          t = { s with adm := { s.adm with conditions := t.adm.conditions }, link := t.link }))) ∧
  (∀ (s : State) (direction load : Byte) (dir : Direction), Taking s → directionOf direction = some dir →
    s.seq.trip = none → ((conf s).unmaskRange = false ∨ load.toNat ≤ 125) → s.seq.state = .fallback →
    ∃ t x, exec (.tripRequest direction load 0) s = .next t ∧ t.seq.trip = some x ∧
      x.id = s.seq.tripCounter ∧ x.purpose = .evacuation ∧ x.cls = (if s.seq.occupancy then 1 else 2) ∧
      x.cancel = false ∧ x.step = none ∧
      x.figures = runFigures (conf s) (signedDemand (conf s).bal (min 125 load.toNat) dir) ∧
      t.seq.tripCounter = s.seq.tripCounter + 1 ∧ t.seq.lastTripId = s.seq.tripCounter ∧ t.seq.state = .fallback ∧
      AcceptedWith t [octet x.id.val, octet x.cls, octet SeqState.fallback.code] ∧ NoReason t ∧ LinkElse s t ∧
      t.link.attention = true ∧
      (firstHalfOpen s = false → x.phase = .pending ∧ t.seq = { s.seq with
        trip := some x, tripCounter := t.seq.tripCounter, lastTripId := t.seq.lastTripId }) ∧
      (firstHalfOpen s = true → x.phase = .running ∧ t.seq = { s.seq with
        trip := some x, tripCounter := t.seq.tripCounter, lastTripId := t.seq.lastTripId, runp := true, spd := .p25
        runTimer := .running s.now, claimClass := x.cls, stamp := 0
        commitment := steadyDraw (conf s) (signedDemand (conf s).bal (min 125 load.toNat) dir) 25 }) ∧
      t = { s with seq := t.seq, adm := t.adm, link := t.link })

/-- A TRIP-CANCEL of a record whose CLAIM is not on the line (R144, R115): the record is NONE, the CLAIM slot empty, its attempt
abandoned, the demand withdrawn, PRESENCE due, and the state is the one the trip came from. One that finds its CLAIM sending
takes the cancel and withdrawn marks, and its answer waits. It is refused with ISOLATED, NO_TRIP or TRIP_ACTIVE as R144 gives
(another trip than a RUNNING one: log 16). Taken at the instant of its CLAIM's completion, after it, it is TOO_LATE as one taken before
it is, with the outcome that R144 gives: the run stopped, or the wake's state left, the record NONE, the CANCELLED RELEASE to the
standing held before, or the SHED RELEASE of a car asked to shed (R115, log 45). In FALLBACK (R160) a PENDING record becomes
NONE and nothing else moves. The detail of NO_TRIP, the whole field octet where R175 says the trip id or 0, is log 33. -/
def Obligations.TripCancelTaken : Prop :=
  (∀ (s : State) (tripId : Byte) (x : Trip), Taking s → s.seq.trip = some x → namesTrip tripId x.id = true →
    s.seq.state.driving = true →
    ((x.phase = .pending ∨ x.phase = .armed) → s.con.attempt.isSending .claim = false →
      ∃ t, exec (.tripCancel tripId) s = .next t ∧ t.seq.trip = none ∧ t.con.claimSlot = none ∧
        t.con.attempt.serves .claim = false ∧ t.adm.ownDemand = none ∧ t.adm.patience = .stopped ∧
        t.seq.agingTimer = .stopped ∧ t.con.presenceDue = true ∧ t.seq.state = x.origin.home ∧
        AcceptedWith t [octet t.seq.state.code] ∧ NoReason t ∧ LinkElse s t ∧ t.link.attention = true ∧
        t.seq = { s.seq with
          state := t.seq.state, shdn := t.seq.shdn, trip := t.seq.trip, agingTimer := t.seq.agingTimer
          idleTimer := t.seq.idleTimer } ∧
        (x.origin = .serviceIdle → t.seq.idleTimer = .running s.now) ∧
        t.con = { s.con with
          attempt := t.con.attempt, key := t.con.key, slotDeadline := t.con.slotDeadline
          claimSlot := t.con.claimSlot, presenceDue := t.con.presenceDue, remarked := t.con.remarked } ∧
        (s.con.attempt.isWaiting .claim = false → t.con.attempt = s.con.attempt) ∧
        t.adm = { s.adm with patience := .stopped, ownDemand := none } ∧
        t = { s with seq := t.seq, adm := t.adm, con := t.con, link := t.link }) ∧
    (x.phase = .armed → s.con.attempt.isSending .claim = true →
      ∃ t, exec (.tripCancel tripId) s = .next t ∧
        t.seq = { s.seq with trip := some { x with
          cancel := true, prior := some { draw := s.seq.commitment, stamp := s.seq.stamp } } } ∧
        t.con = { s.con with withdrawn := true } ∧ t.link.reply = .held x.id ∧ LinkElse s t ∧
        t = { s with seq := t.seq, con := t.con, link := t.link })) ∧
  (∀ (s : State) (tripId : Byte), Taking s →
    ∃ t, exec (.tripCancel tripId) s = .next t ∧ LinkElse s t ∧
      (s.seq.state = .isolated → RefusedWith t .isolated 0 ∧ t = { s with link := t.link }) ∧
      (s.seq.state ≠ .isolated → s.seq.trip = none → s.seq.state = .fallback ∨ (∀ x, ¬CompletedNow s tripId x) →
        RefusedWith t .noTrip tripId.toNat ∧ t = { s with link := t.link }) ∧
      (∀ x, s.seq.state ≠ .isolated → s.seq.trip = some x →
        ((x.phase = .ending ∨ (namesTrip tripId x.id = false ∧ (x.phase ≠ .running ∨ s.seq.state ≠ .fallback))) →
          RefusedWith t .noTrip tripId.toNat ∧ t = { s with link := t.link }) ∧
        (x.phase = .running → s.seq.state = .fallback ∨ (namesTrip tripId x.id = true ∧ ∀ y, ¬CompletedNow s tripId y) →
          RefusedWith t .tripActive x.id.val ∧ t = { s with link := t.link }) ∧
        (x.phase = .pending → namesTrip tripId x.id = true → s.seq.state = .fallback →
          AcceptedWith t [octet SeqState.fallback.code] ∧ NoReason t ∧ t.link.attention = true ∧
          t.seq = { s.seq with trip := none, agingTimer := .stopped } ∧
          t.adm = { s.adm with patience := .stopped, ownDemand := none } ∧
          t = { s with seq := t.seq, adm := t.adm, link := t.link }))) ∧
  (∀ (s : State) (tripId : Byte) (x : Trip) (p : Standing), Taking s → s.seq.state.driving = true →
    CompletedNow s tripId x → x.prior = some p →
    ((∃ a b c d, x.figures = .run a b c d) → s.seq.trip.map Trip.id = some x.id → tripIn .running s = true →
      ∃ t, exec (.tripCancel tripId) s = .next t ∧ TakenBack s t x p ∧ t.seq.runp = false ∧ t.seq.spd = .p25) ∧
    ((∃ f, x.figures = .wake f) → s.seq.trip = none →
      s.seq.state = (if x.purpose = .evacuation then .landed else .serviceIdle) →
      ∃ t, exec (.tripCancel tripId) s = .next t ∧ TakenBack s t x p ∧ t.seq.runp = s.seq.runp ∧
        t.seq.spd = s.seq.spd) ∧
    (s.seq.trip = none → (∃ a b c d, x.figures = .run a b c d) ∨
        s.seq.state ≠ (if x.purpose = .evacuation then .landed else .serviceIdle) →
      ∃ t, exec (.tripCancel tripId) s = .next t ∧ RefusedWith t .tooLate x.id.val ∧ LinkElse s t ∧
        t = { s with link := t.link }))

/-- An accepted TRIP-END (R141): RUNP is negated, the run timer stopped, the report and the lockout written. In EVAC_RUN and
SERVICE_RUN a RELEASE to STBY is posted, the record ENDING, and the state the one that purpose and position give. In
SHED_PENDING (R156) a SHED RELEASE to 0, the shed hold, and PARKED or EVAC_WAIT. In FALLBACK (R161) no RELEASE: the record is
NONE, the commitment STBY, the landed mark by the position. Refused with ISOLATED, NO_TRIP or BAD_FIELD, the run goes on. The
detail of NO_TRIP, the whole field octet where R175 says the trip id or 0, is log 33. -/
def Obligations.TripEndTaken : Prop :=
  (∀ (s : State) (tripId position landing : Byte) (x : Trip) (p : Position), Taking s → s.seq.trip = some x →
    x.phase = .running → namesTrip tripId x.id = true → positionOf position = some p →
    (s.seq.state = .evacRun ∨ s.seq.state = .serviceRun ∨ s.seq.state = .shedPending ∨ s.seq.state = .fallback) →
    ∃ t, exec (.tripEnd tripId position landing 0) s = .next t ∧
      t.seq.runp = false ∧ t.seq.spd = .p25 ∧ t.seq.runTimer = .stopped ∧
      t.seq.report = { position := p, landing := landing, fresh := true } ∧
      (p = .atLanding → t.seq.lockout = false) ∧ (p = .lost → t.seq.lockout = true) ∧
      (p = .between → t.seq.lockout = s.seq.lockout) ∧
      AcceptedWith t [octet t.seq.state.code] ∧ NoReason t ∧ LinkElse s t ∧ t.link.attention = true ∧
      (s.seq.state ≠ .fallback → t.seq.trip = some { x with phase := .ending } ∧ t.con.presenceDue = true ∧
        t.seq.commitment = s.seq.commitment ∧
        t.seq = { s.seq with
          state := t.seq.state, shdn := t.seq.shdn, runp := false, spd := .p25, runTimer := .stopped
          report := t.seq.report, lockout := t.seq.lockout, trip := t.seq.trip, dwellTimer := t.seq.dwellTimer
          idleTimer := t.seq.idleTimer, shedHold := t.seq.shedHold } ∧
        t.con = { s.con with
          attempt := t.con.attempt, key := t.con.key, slotDeadline := t.con.slotDeadline
          releaseSlot := t.con.releaseSlot, superseded := t.con.superseded, presenceDue := t.con.presenceDue
          remarked := t.con.remarked } ∧
        (s.con.attempt.isWaiting .claim = false → t.con.attempt = s.con.attempt) ∧
        t = { s with seq := t.seq, con := t.con, link := t.link }) ∧
      (s.seq.state = .evacRun ∨ s.seq.state = .serviceRun → t.seq.shedHold = s.seq.shedHold ∧
        t.con.releaseSlot = some { reason := .tripEnd, tripId := x.id, draw := ((conf s).stby : Int)
                                   stamp := if (conf s).stby = 0 then 0 else s.seq.stamp } ∧
        t.seq.state = (match x.purpose, p with
          | .evacuation, .atLanding => .landed
          | .service, .atLanding => .serviceIdle
          | .service, .between => .serviceIdle
          | _, _ => .evacWait) ∧
        (t.seq.state = .landed → t.seq.dwellTimer = .running s.now) ∧
        (t.seq.state = .serviceIdle → t.seq.idleTimer = .running s.now)) ∧
      (s.seq.state = .shedPending → t.seq.shdn = false ∧ t.seq.shedHold = .timing s.now ∧
        t.con.releaseSlot = some (shedRelease x.id) ∧
        t.seq.state = (if p = .atLanding then .parked else .evacWait) ∧
        t.seq.dwellTimer = s.seq.dwellTimer ∧ t.seq.idleTimer = s.seq.idleTimer) ∧
      (s.seq.state = .fallback → t.seq = { s.seq with
          runp := false, spd := .p25, runTimer := .stopped, agingTimer := .stopped, report := t.seq.report
          lockout := t.seq.lockout, trip := none, commitment := ((conf s).stby : Int)
          landedMark := p == .atLanding } ∧
        t.adm = { s.adm with patience := .stopped, ownDemand := none } ∧
        t = { s with seq := t.seq, adm := t.adm, link := t.link })) ∧
  (∀ (s : State) (tripId position landing reserved : Byte), Taking s →
    ∃ t, exec (.tripEnd tripId position landing reserved) s = .next t ∧ LinkElse s t ∧
      (s.seq.state = .isolated → RefusedWith t .isolated 0 ∧ t = { s with link := t.link }) ∧
      (s.seq.state ≠ .isolated →
        (s.seq.trip = none ∨ (∃ x, s.seq.trip = some x ∧ (x.phase ≠ .running ∨ namesTrip tripId x.id = false)) ∨
          s.seq.state.runs = false) →
        RefusedWith t .noTrip tripId.toNat ∧ t = { s with link := t.link }) ∧
      (∀ x, s.seq.trip = some x → x.phase = .running → namesTrip tripId x.id = true → s.seq.state.runs = true →
        (positionOf position = none → RefusedWith t .badField 2 ∧ t = { s with link := t.link }) ∧
        (positionOf position ≠ none → reserved ≠ 0 → RefusedWith t .badField 4 ∧ t = { s with link := t.link })))

/-- SERVICE-SELECT outside PARKED (R149): OFF clears the flag, ON sets it unless the lockout refuses; a change marks PRESENCE due in a
driving state, and nothing else moves. ISOLATED and FALLBACK refuse, and a bad field in every other state. -/
def Obligations.ServiceSelectTaken : Prop :=
  ∀ (s : State) (value reserved : Byte), Taking s →
    ∃ t, exec (.serviceSelect value reserved) s = .next t ∧ LinkElse s t ∧
      (s.seq.state = .isolated → RefusedWith t .isolated 0 ∧ t = { s with link := t.link }) ∧
      (s.seq.state = .fallback → RefusedWith t .fallback 0 ∧ t = { s with link := t.link }) ∧
      (s.seq.state ≠ .isolated → s.seq.state ≠ .fallback →
        (1 < value.toNat → RefusedWith t .badField 1 ∧ t = { s with link := t.link }) ∧
        (value.toNat ≤ 1 → reserved ≠ 0 → RefusedWith t .badField 2 ∧ t = { s with link := t.link }) ∧
        (value = 1 → reserved = 0 → s.seq.lockout = true →
          RefusedWith t .positionLost 0 ∧ t = { s with link := t.link }) ∧
        (reserved = 0 → value = 0 ∨ (value = 1 ∧ s.seq.lockout = false ∧ s.seq.state ≠ .parked) →
          AcceptedWith t [octet s.seq.state.code] ∧ NoReason t ∧ t.link.attention = s.link.attention ∧
          t.seq = { s.seq with serviceSelected := (value == 1) } ∧
          (s.seq.state.driving = true → s.seq.serviceSelected ≠ (value == 1) → t.con.presenceDue = true) ∧
          (s.seq.serviceSelected = (value == 1) → t.con = s.con) ∧ t.con.attempt = s.con.attempt ∧
          t.con.releaseSlot = s.con.releaseSlot ∧ t.con.claimSlot = s.con.claimSlot ∧
          t = { s with seq := t.seq, con := t.con, link := t.link }))

/-- CALL-EVENT in SERVICE_IDLE restarts the idle timer when its source is in the idle-restart mask; it has no effect otherwise, nor
in PARKED from a source outside the wake mask, nor in any other state (R150, R160). A bad source or reserved field is
refused. -/
def Obligations.CallEventTaken : Prop :=
  (∀ (s : State) (source : Byte), Taking s → 1 ≤ source.toNat → source.toNat ≤ 4 →
    (s.seq.state = .parked → (conf s).wakeMask.getLsbD (source.toNat - 1) = false) →
    ∃ t, exec (.callEvent source 0) s = .next t ∧ AcceptedWith t [octet s.seq.state.code] ∧ NoReason t ∧
      LinkElse s t ∧ t.link.attention = s.link.attention ∧
      (s.seq.state = .serviceIdle ∧ (conf s).idleRestartMask.getLsbD (source.toNat - 1) = true →
        t = { s with seq := { s.seq with idleTimer := .running s.now }, link := t.link }) ∧
      (¬(s.seq.state = .serviceIdle ∧ (conf s).idleRestartMask.getLsbD (source.toNat - 1) = true) →
        t = { s with link := t.link })) ∧
  (∀ (s : State) (source reserved : Byte), Taking s → (source.toNat = 0 ∨ 4 < source.toNat ∨ reserved ≠ 0) →
    ∃ t, exec (.callEvent source reserved) s = .next t ∧
      RefusedWith t .badField (if source.toNat = 0 ∨ 4 < source.toNat then 1 else 2) ∧ LinkElse s t ∧
      t = { s with link := t.link })

/-- A wake from PARKED (R146), asked for by SERVICE-SELECT ON or by a CALL-EVENT of the wake mask: the lockout, the shed
hold and an ENDING record refuse it in that order; otherwise a WAKE record of purpose SERVICE is PENDING, its claim posted,
the aging timer started, and the state is SERVICE_WAIT. That the entry marks PRESENCE due is the model's reading (log 14). -/
def Obligations.WakeFromParked : Prop :=
  ∀ (s : State) (i : Instr), Taking s → s.seq.state = .parked →
    (i = .serviceSelect 1 0 ∨
      ∃ source : Byte, i = .callEvent source 0 ∧ 1 ≤ source.toNat ∧ source.toNat ≤ 4 ∧
        (conf s).wakeMask.getLsbD (source.toNat - 1) = true) →
    ∃ t, exec i s = .next t ∧ LinkElse s t ∧
      (s.seq.lockout = true → RefusedWith t .positionLost 0 ∧ t = { s with link := t.link }) ∧
      (s.seq.lockout = false → s.seq.shedHold ≠ .clear → RefusedWith t .shedHold 0 ∧ t = { s with link := t.link }) ∧
      (s.seq.lockout = false → s.seq.shedHold = .clear → tripIn .ending s = true →
        AnsweredBusy t ∧ t = { s with link := t.link }) ∧
      (s.seq.lockout = false → s.seq.shedHold = .clear → tripIn .ending s = false →
        AcceptedWith t [octet SeqState.serviceWait.code] ∧ NoReason t ∧ t.link.attention = true ∧
        t.seq.state = .serviceWait ∧ t.seq.serviceSelected = (s.seq.serviceSelected || i == .serviceSelect 1 0) ∧
        t.seq.trip = some { id := s.seq.tripCounter, purpose := .service
                            cls := if t.seq.serviceSelected then 4 else 5, origin := .parked
                            figures := .wake { draw := ((conf s).stby : Int), start := (conf s).stby } } ∧
        t.con.claimSlot = some { kind := .wake, tripId := s.seq.tripCounter } ∧ t.con.presenceDue = true ∧
        t.seq.agingTimer = .running s.now ∧ t.seq.tripCounter = s.seq.tripCounter + 1 ∧
        t.seq = { s.seq with
          state := .serviceWait, shdn := false, serviceSelected := t.seq.serviceSelected, trip := t.seq.trip
          tripCounter := t.seq.tripCounter, lastTripId := s.seq.tripCounter, agingTimer := t.seq.agingTimer } ∧
        t.con = { s.con with
          claimSlot := t.con.claimSlot, presenceDue := true, remarked := t.con.remarked } ∧
        t.adm = { s.adm with view := { tripId := s.seq.tripCounter } } ∧
        t = { s with seq := t.seq, adm := t.adm, con := t.con, link := t.link })

/-- A request while a reply is outstanding, or while the receiver discards, is lost whole (R167, R168), and so is every octet while
RESET is held, when the receiver stays IDLE (R132, log 21); one that R171 does not take
before CONFIGURE is refused with NOT_CONFIGURED and its code. An unknown code is answered BAD_FIELD 0, in UNCONFIGURED too
(log 11); a bad frame and a gap leave the held reason and send nothing; a bad frame leaves the receiver IDLE, or DISCARDING where
a request would be lost; a length above 42 discards; a gap is 10 ms of quiet and leaves the receiver IDLE whatever it was, as
10 ms of quiet end DISCARDING; a sent reply is no longer outstanding. A request comes as one whole frame (log 22), and the
instants are the model's clock (log 1). -/
def Obligations.LinkFramesHandled : Prop :=
  (∀ (s : State) (i : Instr) (frame : List Byte), wellFormed i = true → requestFrame i = some frame →
    linkReady s = false → exec i s = .next { s with link := { s.link with
      receiver := if inReset s then .idle else .discarding s.now } }) ∧
  (∀ (s : State) (i : Instr) (code : Byte) (rest : List Byte), requestFrame i = some (code :: rest) →
    linkReady s = true → configured s = false → 4 ≤ code.toNat → code.toNat ≤ 13 → wellFormed i = true →
    ∃ t, exec i s = .next t ∧ RefusedWith t .notConfigured code.toNat ∧ LinkElse s t ∧
      t.link.attention = s.link.attention ∧ t = { s with link := t.link }) ∧
  (∀ (s : State) (code : Byte) (fields : List Byte), linkReady s = true →
    ∃ t, exec (.unknownRequestCode code fields) s = .next t ∧ RefusedWith t .badField 0 ∧ LinkElse s t ∧
      t.link.attention = s.link.attention ∧ t = { s with link := t.link }) ∧
  (∀ (s : State) (cause : DiscardCause), exec (.requestDiscarded cause) s = .next { s with link := { s.link with
      receiver := if inReset s = false ∧ (cause = .lengthAbove42 ∨ linkReady s = false) then .discarding s.now
        else .idle } }) ∧
  (∀ s : State, inReset s = true →
    exec .requestGapExpiry s = .next { s with link := { s.link with receiver := .idle } }) ∧
  (∀ s : State, inReset s = false → exec .requestGapExpiry s = .next { s with
      now := s.now + 10000, link := { s.link with receiver := .idle } }) ∧
  (∀ (s : State) (since : Nat), s.link.receiver = .discarding since →
    exec .discardQuietExpiry s = .next { s with
      now := max s.now (since + 10000), link := { s.link with receiver := .idle } }) ∧
  (∀ (s : State) (frame : List Byte), s.link.reply = .sending frame →
    exec .replySent s = .next { s with link := { s.link with reply := .none } })

/-! ### The supply monitor -/

/-- A contact that reads a new level starts its debounce; one that reads its debounced level again stops it; the debounced reading waits
(R61, R63, R64). While RESET is held nothing is timed, since the reset takes the readings as they stand at its end (R61, R63, R64,
R132, log 21). -/
def Obligations.ContactsAreDebounced : Prop :=
  (∀ (s : State) (r : TrnReading), ∃ tm, exec (.trnChange r) s = .next { s with
      pins := { s.pins with trn := r }, supply := { s.supply with trnTimer := tm } } ∧
    (r = s.supply.trn ∨ inReset s = true → tm = .stopped) ∧
    (inReset s = false → r ≠ s.supply.trn → s.supply.trnTimer = .stopped → tm = .running s.now) ∧
    (inReset s = false → r ≠ s.supply.trn → s.supply.trnTimer ≠ .stopped → tm = s.supply.trnTimer)) ∧
  (∀ (s : State) (r : GokReading), ∃ tm, exec (.gokChange r) s = .next { s with
      pins := { s.pins with gok := r }, supply := { s.supply with gokTimer := tm } } ∧
    (r = s.supply.gok ∨ inReset s = true → tm = .stopped) ∧
    (inReset s = false → r ≠ s.supply.gok → s.supply.gokTimer = .stopped → tm = .running s.now) ∧
    (inReset s = false → r ≠ s.supply.gok → s.supply.gokTimer ≠ .stopped → tm = s.supply.gokTimer)) ∧
  (∀ (s : State) (c : Fin 8), ∃ cand tm, exec (.capChange c) s = .next { s with
      pins := { s.pins with cap := c }, supply := { s.supply with candidate := cand, capTimer := tm } } ∧
    (c = s.supply.capCode ∨ inReset s = true → cand = none ∧ tm = .stopped) ∧
    (inReset s = false → c ≠ s.supply.capCode → s.supply.candidate = some c →
      cand = some c ∧ tm = s.supply.capTimer) ∧
    (inReset s = false → c ≠ s.supply.capCode → s.supply.candidate ≠ some c → cand = some c ∧ tm = .running s.now))

/-- TAKEOVER in DORMANT (R61, R62, R121, R122): the session origin is the takeover instant, RUNP is negated and EMOP
asserted; the start window is 60 s the first time and 15 s later, and with the supply good JOINING is entered at once (R122,
R124); a set duplicate flag enters ISOLATED. The instants are the model's clock (log 1). -/
def Obligations.TakeoverFromDormant : Prop :=
  ∀ (s : State) (since : Nat), s.seq.state = .dormant → s.supply.trnTimer = .running since →
    s.supply.trn = .normal → s.pins.trn = .emergency →
    ∃ t, exec .trnDebounceExpiry s = .next t ∧ t.supply.trn = .emergency ∧ t.supply.trnTimer = .stopped ∧
      t.now = max s.now (since + 500000) ∧ t.seq.sessionOrigin = some t.now ∧ t.seq.firstTakeover = false ∧
      t.seq.runp = false ∧ t.seq.spd = .p25 ∧ t.seq.emop = true ∧ t.seq.shdn = false ∧
      (s.seq.duplicate = true → t.seq.state = .isolated ∧ t.seq.startWindow = .stopped) ∧
      (s.seq.duplicate = false → s.supply.good = false → t.seq.state = .awaitSupply ∧
        t.seq.startWindow = .running t.now ∧
        t.seq.startWindowLength = (if s.seq.firstTakeover then 60000000 else 15000000)) ∧
      (s.seq.duplicate = false → s.supply.good = true → JoinedNow s t) ∧
      t.link.attention = true ∧ t.config = s.config ∧ t.pins = s.pins ∧ t.station = s.station ∧
      t.seq.lockout = s.seq.lockout ∧ t.seq.serviceSelected = s.seq.serviceSelected

/-- RETRANSFER in a session state (R163, R76): DORMANT with the run permit, no trip, no standing, nothing on its way out, the
roster closed, derating cleared and Cap formed afresh; a waiting TRIP-CANCEL is answered accepted and the shed-owed mark cleared (R164; the code
in that reply: log 15); the flags that R163 keeps are kept. -/
def Obligations.RetransferEndsSession : Prop :=
  ∀ (s : State) (since : Nat), s.seq.state.session = true → s.supply.trnTimer = .running since →
    s.supply.trn = .emergency → s.pins.trn = .normal →
    ∃ t, exec .trnDebounceExpiry s = .next t ∧ t.supply.trn = .normal ∧ t.seq.state = .dormant ∧
      t.seq.runp = true ∧ t.seq.spd = .p100 ∧ t.seq.shdn = false ∧ t.seq.emop = false ∧ t.seq.trip = none ∧
      t.seq.commitment = 0 ∧ t.seq.claimClass = 0 ∧ t.seq.stamp = 0 ∧ t.seq.lockout = false ∧
      t.seq.landedMark = false ∧ t.seq.shedHold = .clear ∧ t.seq.sessionOrigin = none ∧ OutboundClear t ∧
      t.roster.isOpen = false ∧ t.roster.records = [] ∧ t.roster.mark = 0 ∧ t.adm.ownDemand = none ∧
      t.supply.derate = 0 ∧ t.supply.settle = .stopped ∧ t.supply.holdTimer = .stopped ∧
      t.supply.capHeld = s.supply.capCode.val * (conf s).sstep - (conf s).rsv ∧
      t.seq.occupancy = s.seq.occupancy ∧ t.seq.serviceSelected = s.seq.serviceSelected ∧
      t.seq.duplicate = s.seq.duplicate ∧ t.seq.tripCounter = s.seq.tripCounter ∧
      t.seq.report = s.seq.report ∧ t.seq.firstTakeover = s.seq.firstTakeover ∧
      t.adm.conditions = s.adm.conditions ∧ t.adm.view = s.adm.view ∧ t.con.roundOpen = s.con.roundOpen ∧
      t.con.spoken = s.con.spoken ∧ t.link.queue = s.link.queue ∧ t.link.attention = true ∧ t.config = s.config ∧
      t.pins = s.pins ∧ DebtsSettled s t

/-- The GOK debounce (R63, R68, R69): the reading changes; the rise of supply good takes a waiting session into JOINING
(R124), and the negation in a supplied state is SUPPLY_LOSS (R129), with what it settles (R164; the code in a waiting reply: log
15); no other change raises an event. The instants are the model's clock (log 1). -/
def Obligations.GokDebounced : Prop :=
  ∀ (s : State) (since : Nat), s.supply.gokTimer = .running since →
    ∃ t, exec .gokDebounceExpiry s = .next t ∧ t.supply.gok = s.pins.gok ∧ t.supply.gokTimer = .stopped ∧
      t.now = max s.now (since + 200000) ∧ t.config = s.config ∧ t.pins = s.pins ∧
      ((s.seq.state = .awaitSupply ∨ s.seq.state = .noSupply) → s.supply.gok = .negated → s.pins.gok = .asserted →
        s.supply.freqClass = .inWindow → JoinedNow s t) ∧
      (s.seq.state.supplied = true → s.supply.gok = .asserted → s.pins.gok = .negated →
        s.supply.freqClass ≠ .absent → SupplyLost s t t.now) ∧
      (¬((s.seq.state = .awaitSupply ∨ s.seq.state = .noSupply) ∧ s.supply.gok = .negated ∧
          s.pins.gok = .asserted ∧ s.supply.freqClass = .inWindow) →
        ¬(s.seq.state.supplied = true ∧ s.supply.gok = .asserted ∧ s.pins.gok = .negated ∧
          s.supply.freqClass ≠ .absent) → t = { s with now := t.now, supply := t.supply }) ∧
      (s.pins.gok = s.supply.gok → t = { s with now := t.now, supply := t.supply })

/-- The CAP debounce (R64, R70, R71, R75): the candidate becomes C and Cap is formed; a change of Cap starts the hold and abandons a
WAITING attempt, an ARMED record of a CLAIM with it (R110, R111, R135); a formation that gives the same Cap changes nothing else. A
fall of Cap in a driving state runs the shed test (R151): the shed view takes it, and a car found in the set sheds as its state gives (R154 to R156). The instants are the
model's clock (log 1). -/
def Obligations.CapDebounced : Prop :=
  ∀ (s : State) (code : Fin 8) (since : Nat), configured s = true → s.supply.candidate = some code →
    s.supply.capTimer = .running since →
    ∃ t, exec .capDebounceExpiry s = .next t ∧ t.supply.capCode = code ∧ t.supply.candidate = none ∧
      t.supply.capTimer = .stopped ∧ t.now = max s.now (since + 200000) ∧
      t.supply.capHeld = (code.val - s.supply.derate) * (conf s).sstep - (conf s).rsv ∧
      (t.supply.capHeld = s.supply.capHeld → t.supply.holdTimer = s.supply.holdTimer ∧
        t = { s with now := t.now, supply := t.supply }) ∧
      (t.supply.capHeld ≠ s.supply.capHeld → t.supply.holdTimer = .running t.now ∧
        ∀ b, t.con.attempt ≠ .waiting b) ∧
      (s.supply.capHeld < t.supply.capHeld ∨ (t.supply.capHeld < s.supply.capHeld ∧ s.seq.state.driving = false) →
        Abandoned s t ∧ t.adm = s.adm ∧ t.seq = { s.seq with trip := t.seq.trip } ∧
        t.con.releaseSlot = s.con.releaseSlot ∧ t.con.claimSlot = s.con.claimSlot ∧
        t.con.presenceDue = s.con.presenceDue) ∧
      (t.supply.capHeld < s.supply.capHeld → s.seq.state.driving = true →
        ShedViewed { s with supply := t.supply } t ∧ ShedActed { s with supply := t.supply } t ∧
        (¬ShedsOwn { s with supply := t.supply } → Abandoned s t)) ∧
      t.supply.derate = s.supply.derate ∧ t.supply.freqClass = s.supply.freqClass ∧ t.roster = s.roster ∧
      t.line = s.line ∧ t.config = s.config ∧ t.pins = s.pins ∧ t.seq.runp = s.seq.runp ∧
      t.seq.commitment = s.seq.commitment

/-- An FSN pulse (R65, R66): with no train it begins one and measures nothing; within 100 ms of the one before, it classifies the
period by the table of R65, with f the reciprocal of the period. A change of class starts or stops the in-window time and, in a
supplied state, the UNDER timer (R67, R72), and abandons a WAITING attempt (R75, R110, R111, R135); a rise of supply good takes a
waiting session into JOINING (R68, R122 to R124). A pulse later than 100 ms finds the class ABSENT, with the loss that this is, and
begins a new train (log 26). While RESET is held no train begins (R66, R132, log 21). The operand, a period in microseconds, and the instants are the model's (logs 1 and 26). -/
def Obligations.PulseClassified : Prop :=
  (∀ (s : State) (period : Nat), inReset s = true → exec (.fsnPulse period) s = .next s) ∧
  ∀ (s : State) (period : Nat), 0 < period → inReset s = false →
    (s.supply.train = none → exec (.fsnPulse period) s = .next { s with supply := { s.supply with
      train := some s.now, absenceTimer := .running s.now } }) ∧
    (∀ last, s.supply.train = some last → period ≤ 100000 →
      ∃ t, exec (.fsnPulse period) s = .next t ∧ t.now = max s.now (last + period) ∧
        t.supply.train = some t.now ∧ t.supply.absenceTimer = .running t.now ∧
        (985 * nominalFrequency s * period ≤ 1000000000 → 1000000000 ≤ 1015 * nominalFrequency s * period →
          t.supply.freqClass = .inWindow) ∧
        (1015 * nominalFrequency s * period < 1000000000 → t.supply.freqClass = .offWindow) ∧
        (940 * nominalFrequency s * period ≤ 1000000000 → 1000000000 < 985 * nominalFrequency s * period →
          t.supply.freqClass = .offWindow) ∧
        (1000000000 < 940 * nominalFrequency s * period → t.supply.freqClass = .under) ∧
        (t.supply.freqClass = s.supply.freqClass → t.supply.inWindowTimer = s.supply.inWindowTimer ∧
          t = { s with now := t.now, supply := t.supply }) ∧
        (t.supply.freqClass ≠ s.supply.freqClass →
          t.supply.inWindowTimer = (if t.supply.freqClass = .inWindow then .running t.now else .stopped) ∧
          t.supply.inWindowHalf = false ∧
          t.supply.underTimer = (if t.supply.freqClass = .under ∧ s.seq.state.supplied = true then .running t.now
            else .stopped) ∧
          t.supply.episodeMark = (s.supply.episodeMark && !(t.supply.freqClass == .inWindow)) ∧
          t.supply.derate = s.supply.derate ∧ Abandoned s t) ∧
        ((s.seq.state = .awaitSupply ∨ s.seq.state = .noSupply) → s.supply.gok = .asserted →
          s.supply.freqClass ≠ .inWindow → t.supply.freqClass = .inWindow → JoinedNow s t) ∧
        (¬((s.seq.state = .awaitSupply ∨ s.seq.state = .noSupply) ∧ s.supply.gok = .asserted ∧
            s.supply.freqClass ≠ .inWindow ∧ t.supply.freqClass = .inWindow) →
          t.seq = { s.seq with trip := t.seq.trip } ∧ t.roster = s.roster ∧ t.adm = s.adm ∧ t.line = s.line ∧
          t.supply.settle = s.supply.settle ∧ t.con.releaseSlot = s.con.releaseSlot ∧
          t.con.claimSlot = s.con.claimSlot ∧ t.con.presenceDue = s.con.presenceDue ∧
          t.link.reply = s.link.reply) ∧
        t.config = s.config ∧ t.pins = s.pins ∧ t.supply.gok = s.supply.gok ∧ t.supply.trn = s.supply.trn ∧
        t.supply.capHeld = s.supply.capHeld ∧ t.supply.holdTimer = s.supply.holdTimer) ∧
    (∀ last, s.supply.train = some last → 100000 < period →
      ∃ t, exec (.fsnPulse period) s = .next t ∧ t.now = max s.now (last + period) ∧
        t.supply.train = some t.now ∧ t.supply.absenceTimer = .running t.now ∧
        AbsenceTaken s t (max s.now (last + 100000)) ∧ t.config = s.config ∧ t.pins = s.pins)

/-- 100 ms without a pulse (R66): the train ends and the class is ABSENT, which stops the timers of the class and is a notice to a
WAITING attempt (R67, R72, R75, R110, R111). In a supplied state with GOK asserted it is SUPPLY_LOSS (R69, R129), which takes the
session back to AWAIT_SUPPLY for 15 s, with nothing sent and nothing kept of the trip, the slots or the roster, a waiting
TRIP-CANCEL answered (R164; its code: log 15). In any other state, or with GOK negated, it raises no event. The instants are the
model's clock (log 1). -/
def Obligations.AbsenceIsSupplyLoss : Prop :=
  ∀ (s : State) (since : Nat), s.supply.absenceTimer = .running since →
    ∃ t, exec .absenceExpiry s = .next t ∧ t.now = max s.now (since + 100000) ∧ t.supply.train = none ∧
      t.supply.absenceTimer = .stopped ∧ AbsenceTaken s t t.now ∧ t.config = s.config ∧ t.pins = s.pins

/-- The pacing timers reach their times (R67, R71, R73, R74, R75): each moves its own part of the monitor; when a settled
indication changes with it, a WAITING attempt is abandoned, an ARMED record of a CLAIM with it (R110, R111, R135), and when none
does, nothing else changes. The instants are the model's clock (log 1). -/
def Obligations.PacingTimersExpire : Prop :=
  ∀ (s : State) (since : Nat) (i : Instr) (m : SupplyMonitor) (limit : Nat),
    ((i = .inWindowHalfSecond ∧ s.supply.inWindowTimer = .running since ∧ s.supply.inWindowHalf = false ∧
        m = { s.supply with inWindowHalf := true } ∧ limit = 500000) ∨
      (i = .settleTimerExpiry ∧ s.supply.settle = .running since ∧ m = { s.supply with settle := .expired } ∧
        limit = (conf s).settleTime * 1000000) ∨
      (i = .capacityHoldExpiry ∧ s.supply.holdTimer = .running since ∧
        m = { s.supply with holdTimer := .stopped } ∧ limit = (conf s).holdTime * 1000000)) →
    ∃ t, exec i s = .next t ∧ t.now = max s.now (since + limit) ∧ t.supply = m ∧
      (m.settledEvac = s.supply.settledEvac → m.settledService = s.supply.settledService →
        t = { s with now := t.now, supply := m }) ∧
      (m.settledEvac ≠ s.supply.settledEvac ∨ m.settledService ≠ s.supply.settledService →
        Abandoned s t ∧ t.seq = { s.seq with trip := t.seq.trip } ∧ t.seq.state = s.seq.state ∧ t.seq.runp = s.seq.runp ∧
        t.con.releaseSlot = s.con.releaseSlot ∧ t.con.claimSlot = s.con.claimSlot ∧
        t.con.presenceDue = s.con.presenceDue ∧ t.con.spoken = s.con.spoken ∧ t.con.failures = s.con.failures ∧
        t.roster = s.roster ∧ t.adm = s.adm ∧ t.line = s.line ∧ t.config = s.config ∧ t.pins = s.pins)

/-- The UNDER timer reaches 2 s (R72): with the episode mark clear, K rises by 1, at most to 7, the mark is set and Cap is
formed anew: a change of it starts the hold and abandons a WAITING attempt (R71, R75, R110, R135), a fall of it in a driving state
runs the shed test and acts on the own car (R70, R151 to R157); with it set only the timer stops. The instants are the model's
clock (log 1). -/
def Obligations.UnderTimerDerates : Prop :=
  ∀ (s : State) (since : Nat), configured s = true → s.supply.underTimer = .running since →
    ∃ t, exec .underTimerExpiry s = .next t ∧ t.now = max s.now (since + 2000000) ∧
      t.supply.underTimer = .stopped ∧ t.supply.episodeMark = true ∧
      (s.supply.episodeMark = true → t = { s with now := t.now, supply := { s.supply with underTimer := .stopped } }) ∧
      (s.supply.episodeMark = false → t.supply.derate = min 7 (s.supply.derate + 1) ∧
        t.supply.capHeld = (s.supply.capCode.val - t.supply.derate) * (conf s).sstep - (conf s).rsv ∧
        (t.supply.capHeld ≠ s.supply.capHeld → t.supply.holdTimer = .running t.now ∧
          ∀ b, t.con.attempt ≠ .waiting b) ∧
        (t.supply.capHeld = s.supply.capHeld → t = { s with now := t.now, supply := t.supply }) ∧
        (s.supply.capHeld < t.supply.capHeld ∨ (t.supply.capHeld < s.supply.capHeld ∧ s.seq.state.driving = false) →
          Abandoned s t ∧ t.adm = s.adm ∧ t.seq = { s.seq with trip := t.seq.trip } ∧
          t.con.releaseSlot = s.con.releaseSlot ∧ t.con.claimSlot = s.con.claimSlot ∧
          t.con.presenceDue = s.con.presenceDue) ∧
        (t.supply.capHeld < s.supply.capHeld → s.seq.state.driving = true →
          ShedViewed { s with supply := t.supply } t ∧ ShedActed { s with supply := t.supply } t ∧
          (¬ShedsOwn { s with supply := t.supply } → Abandoned s t))) ∧
      t.supply.capCode = s.supply.capCode ∧ t.supply.settle = s.supply.settle ∧ t.roster = s.roster ∧
      t.line = s.line ∧ t.config = s.config ∧ t.pins = s.pins

/-! ### The line and the contention unit -/

/-- The line as it is read (R79, R82, R83), with nothing of the own on it: the level follows what the others leave; each dominant
edge starts the long-dominant timer, each change to recessive stops it and within an activity sets the reference. A dominant
edge on a quiet line begins an activity, stops the round timer and abandons a WAITING attempt, with an ARMED record PENDING
again, but not a SENDING one (R81, R101, R110, R135). In an ACTIVE receiver an edge up to the very instant of the base gap is one of the activity, and after the stop bit
begins a late octet and marks FRAME (R81, R82; that the command taken says which comes first is log 31); a later one ends the
activity and begins a new one (R82). 16 dominant bit times mark the activity and raise LINE at once (R83), and a stopped timer
does nothing. After a reset the first base gap, on a line recessive then or told to become so, lets the receiver begin (R98, R99).
While RESET is held nothing of the line is read (R79, R132, log 21). That the long-dominant timer runs and LINE is raised before that gap, and that it counts from the last change, is log 18. The
instants are the model's clock (log 1), the changes told its inputs (logs 5 and 34). -/
def Obligations.ActivityBegins : Prop :=
  (∀ (u : LineUnit) (c : LineChange), u.transmitter = none → u.readTo ≤ u.startedAt + c.after →
    (u.othersChange c).others = c.level ∧ (u.othersChange c).level = c.level ∧
      (u.othersChange c).readTo = u.startedAt + c.after ∧
      (u.level = .recessive → c.level = .dominant → (u.othersChange c).longTimer = .running (u.startedAt + c.after) ∧
        (u.othersChange c).changedAt = u.startedAt + c.after ∧
        (u.othersChange c).active = (u.active || !u.awaitingGap)) ∧
      (u.level = .dominant → c.level = .recessive → (u.othersChange c).longTimer = .stopped ∧
        (u.othersChange c).changedAt = u.startedAt + c.after ∧ (u.othersChange c).active = u.active ∧
        (u.active = true → (u.othersChange c).endReference = some (u.startedAt + c.after))) ∧
      (c.level = u.level → u.othersChange c = { u with
        others := c.level, readTo := (u.othersChange c).readTo })) ∧
  (∀ s : State, inReset s = true → exec .firstBaseGap s = .next s ∧ exec .longDominantExpiry s = .next s ∧
    ∃ u, LineAnew s.line u s.now ∧
      exec .lineActivityStart s = .next { s with line := { u with others := .dominant, level := .dominant } }) ∧
  (∀ s : State, inReset s = false → s.line.active = false → s.line.awaitingGap = false →
    s.line.level = .recessive → s.line.transmitter = none → s.line.readTo ≤ s.now →
    ∃ t, exec .lineActivityStart s = .next t ∧ t.line = { s.line with
        others := .dominant, level := .dominant, readTo := s.now, changedAt := s.now, active := true
        startedAt := s.now, inHand := some { start := s.now, bits := [] }, inTimeUntil := 0, octets := []
        octetCount := 0, frameMark := false, longMark := false, longTimer := .running s.now } ∧
      lineLevel t = .dominant ∧ t.con.roundTimer = .stopped ∧ (∀ b, t.con.attempt ≠ .waiting b) ∧ Abandoned s t ∧
      t.seq = { s.seq with trip := t.seq.trip } ∧
      (∀ b, s.con.attempt = .sending b → t.con = { s.con with roundTimer := .stopped }) ∧
      t.con.releaseSlot = s.con.releaseSlot ∧ t.con.claimSlot = s.con.claimSlot ∧
      t.con.presenceDue = s.con.presenceDue ∧ t.con.spoken = s.con.spoken ∧ t.con.failures = s.con.failures ∧
      t.seq.state = s.seq.state ∧ t.seq.runp = s.seq.runp ∧ t.roster = s.roster ∧ t.supply = s.supply ∧
      t.adm = s.adm ∧ t.config = s.config ∧ t.pins = s.pins ∧ t.now = s.now) ∧
  (∀ (s : State) (since : Nat), inReset s = false → s.line.longTimer = .running since →
    s.line.transmitter = none → s.line.coming = [] →
    ∃ t, exec .longDominantExpiry s = .next t ∧ t.now = max s.now (since + 160) ∧
      t.line.longMark = (s.line.longMark || s.line.active) ∧ t.line.longTimer = .stopped ∧
      t.line.level = s.line.level ∧ t.line.active = s.line.active ∧ t.line.octets = s.line.octets ∧
      (configured s = true → t.line.lastError = .longDominant ∧ t.adm.conditions.line = true) ∧
      (configured s = false → t.line.lastError = s.line.lastError ∧ t.adm = s.adm) ∧ t.seq = s.seq ∧ t.con = s.con ∧
      t.roster = s.roster ∧ t.supply = s.supply ∧ t.config = s.config ∧ t.pins = s.pins) ∧
  (∀ s : State, s.line.longTimer = .stopped → s.line.coming = [] → exec .longDominantExpiry s = .next s) ∧
  (∀ (s : State) (o : OctetInHand), inReset s = false → s.line.active = true → s.line.transmitter = none → s.line.coming = [] →
    s.line.level = .recessive → s.line.readTo ≤ s.now → s.line.startedAt ≤ s.now → s.line.inHand = some o →
    o.bits.length ≤ 8 → o.start + 110 ≤ s.now → s.now ≤ s.line.changedAt + 120 →
    ∃ t, exec .lineActivityStart s = .next t ∧ t = { s with line := t.line } ∧ t.line = { s.line with
        others := .dominant, level := .dominant, readTo := s.now, changedAt := s.now, longTimer := .running s.now
        inHand := some { start := s.now, bits := [] }, inTimeUntil := o.start + 110, octetCount := s.line.octetCount + 1
        octets := t.line.octets, frameMark := true }) ∧
  (∀ s : State, inReset s = false → s.line.active = true → s.line.awaitingGap = false →
    s.line.transmitter = none → s.line.coming = [] → s.line.level = .recessive → s.line.readTo ≤ s.now → s.line.changedAt + 120 < s.now →
    ∃ t, exec .lineActivityStart s = .next t ∧ t.now = s.now ∧ t.line = { s.line with
        others := .dominant, level := .dominant, readTo := s.now, changedAt := s.now, startedAt := s.now
        longTimer := .running s.now, inHand := some { start := s.now, bits := [] }, inTimeUntil := 0, octets := []
        octetCount := 0, frameMark := false, longMark := false, lastError := t.line.lastError } ∧
      t.con.roundTimer = .stopped ∧ (∀ b, t.con.attempt ≠ .waiting b)) ∧
  (∀ s : State, inReset s = false → s.line.awaitingGap = true → s.line.coming = [] →
    (s.line.level = .recessive → ∃ t, exec .firstBaseGap s = .next t ∧
      t.now = max s.now (s.line.changedAt + 120) ∧ t = { s with
        now := t.now, line := { s.line with awaitingGap := false }
        con := { s.con with roundTimer := .running t.now } }) ∧
    (s.line.level = .dominant → exec .firstBaseGap s = .next s)) ∧
  (∀ (s : State) (c : LineChange), inReset s = false → s.line.awaitingGap = true → s.line.active = false → s.line.transmitter = none →
    s.line.coming = [c] → s.line.level = .dominant → c.level = .recessive →
    s.line.readTo ≤ s.line.startedAt + c.after →
    ∃ t, exec .firstBaseGap s = .next t ∧ t.now = max s.now (s.line.startedAt + c.after + 120) ∧
      t.line.level = .recessive ∧ t.line.changedAt = s.line.startedAt + c.after ∧ t.line.awaitingGap = false ∧
      t.line.active = false ∧ t.line.coming = [] ∧ t.con = { s.con with roundTimer := .running t.now } ∧
      t = { s with now := t.now, line := t.line, con := t.con })

/-- The round closes at 920 bit times (R101): the spoken flag is cleared, the round is OPEN and the round timer restarts. The choice
made there (R107): with no attempt in hand, a RELEASE in its slot is chosen with the key of its station; with no RELEASE and no
admitted CLAIM, a due PRESENCE is chosen with key 384 + station, with the standing of that moment as its content and its
re-marked mark cleared (R91, R108); with nothing due, nothing. Each slot comes 12 + 2 × key bit times on (R103, R104). The
instants are the model's clock (log 1). -/
def Obligations.RoundCloses : Prop :=
  ∀ (s : State) (since : Nat), s.con.roundTimer = .running since →
    ∃ t, exec .roundClose s = .next t ∧ t.now = max s.now (since + 9200) ∧ t.con.spoken = false ∧
      t.con.roundOpen = true ∧ t.con.roundTimer = .running t.now ∧
      (s.con.attempt = .none → s.seq.state.driving = true → Chosen t.now s t) ∧
      (s.seq.state.driving = false → s.seq.trip = none → t.con.attempt = s.con.attempt) ∧
      t.roster = s.roster ∧ t.supply = s.supply ∧ t.line = s.line ∧ t.config = s.config ∧ t.pins = s.pins ∧
      t.seq.runp = s.seq.runp ∧ t.con.failures = s.con.failures

/-- The choice of a CLAIM (R52, R107, R108, R135): with the round OPEN, nothing spoken, no RELEASE and an ADMIT, the CLAIM is chosen with the
admitted figures, the next stamp and the trip's class, and the record is ARMED at the admitted step. A wake trip has no step,
in the record or in the view (log 28). -/
def Obligations.ClaimChosen : Prop :=
  ∀ (s : State) (since : Nat) (x : Trip) (p : ClaimPost) (v : Option SpeedStep) (f : StepFigures),
    s.con.roundTimer = .running since → s.con.attempt = .none → s.seq.state.driving = true →
    s.con.releaseSlot = none → s.con.claimSlot = some p → s.seq.trip = some x → x.phase = .pending →
    decideTrip s x = { outcome := .admitted, offer := some (v, f) } →
    ∃ t, exec .roundClose s = .next t ∧
      t.con.attempt = .waiting (.claim { cls := x.cls, kind := x.figures.kind, speed := v.getD .p25, tripId := x.id
                                         draw := f.draw, start := f.start, stamp := nextStamp s.roster.mark
                                         dmax := (conf s).dmax }) ∧
      t.con.key = x.cls * 64 + s.station ∧
      t.con.slotDeadline = some (t.now + (12 + 2 * (x.cls * 64 + s.station)) * 10) ∧
      t.seq = { s.seq with trip := some { x with phase := .armed, step := v } } ∧
      t.adm.view.outcome = .admitted ∧ t.adm.view.step = v ∧ t.adm.view.mpos = motoringSum s ∧
      t.adm.view.cap = capacityOf s ∧ t.con.claimSlot = some p ∧ t.link.attention = true ∧ t.roster = s.roster ∧
      t.supply = s.supply ∧ t.line = s.line ∧ t.config = s.config

/-- The slot of a WAITING attempt comes on a recessive line (R85, R105, R109): the message begins, all its octets with their CRC; a
RELEASE goes as its slot now holds it. The line goes dominant with the own start bit, which is line activity (R79, R81, R101);
a line that does not follow the driver stays as it is (log 6). On a dominant line nothing begins and
the attempt is abandoned, with an ARMED record PENDING again (R85, R110, R135). The instants are the model's clock (log 1). -/
def Obligations.SlotBeginsMessage : Prop :=
  (∀ (s : State) (b : Body) (deadline : Nat), s.con.attempt = .waiting b →
    s.con.slotDeadline = some deadline → s.line.level = .recessive → s.line.others = .recessive →
    s.line.active = false → s.line.awaitingGap = false → s.seq.state.driving = true →
    ∃ t b', exec .slotExpiry s = .next t ∧ t.now = max s.now deadline ∧ t.con.attempt = .sending b' ∧
      (b.kind ≠ .release → b' = b) ∧
      (∀ r r', b = .release r → s.con.releaseSlot = some r' → b' = .release r') ∧
      t.line.transmitter = some { octets := encodeMessage { station := s.station, body := b' }, startedAt := t.now } ∧
      rltx t = .dominant ∧ t.line.level = (if s.line.follows then .dominant else .recessive) ∧
      lineLevel t = t.line.level ∧
      t = { s with now := t.now, line := t.line, con := { s.con with
              attempt := .sending b', slotDeadline := none
              roundTimer := if s.line.follows then .stopped else s.con.roundTimer } } ∧
      (s.line.follows = true → t.line = { s.line with
        transmitter := t.line.transmitter, level := .dominant, readTo := max s.line.readTo t.now
        changedAt := t.now, active := true, startedAt := t.now, inHand := some { start := t.now, bits := [] }
        inTimeUntil := 0, octets := [], octetCount := 0, frameMark := false, longMark := false
        longTimer := .running t.now }) ∧
      (s.line.follows = false → t.line = { s.line with
        transmitter := t.line.transmitter, readTo := max s.line.readTo t.now })) ∧
  (∀ (s : State) (b : Body) (deadline : Nat), s.con.attempt = .waiting b →
    s.con.slotDeadline = some deadline → s.line.level = .dominant →
    ∃ t, exec .slotExpiry s = .next t ∧ t.line = s.line ∧ t.con.attempt = .none ∧ Abandoned s t ∧
      t.seq = { s.seq with trip := t.seq.trip } ∧ t.now = max s.now deadline ∧
      t.con.releaseSlot = s.con.releaseSlot ∧ t.con.claimSlot = s.con.claimSlot ∧
      t.con.presenceDue = s.con.presenceDue ∧ t.con.failures = s.con.failures)

/-- An attempt fails (R86, R87, R114): at the middle of the first bit of the own message that reads back as another level under the
changes told, by a line that ceases to follow the bit being sent (log 6), or by a dominant line after the last stop bit was
read back and no later than the base gap after the line last became recessive (R82). That SENDING ends by the clock, at that last stop bit, is log 7. The line is released, the
failure count rises, the message stays in its slot, a CLAIM's record is PENDING again; a withdrawn or cancelled CLAIM is
emptied from its slot and its record is NONE, with the state, the SHED RELEASE of an owed shed and the waiting answer that
R115, R144 and R155 give. The eighth failure enters FALLBACK (R158), the shed-owed mark cleared; a waiting answer is accepted, for a
withdrawn CLAIM before the entry (R164, log 15). -/
def Obligations.AttemptFails : Prop :=
  ∀ (s : State) (b : Body) (x : Sending) (i : Instr), s.line.transmitter = some x →
    s.con.attempt = .sending b → s.seq.state.driving = true →
    ((i = .attemptJoined ∧ ∃ before c rest, s.line.coming = before ++ c :: rest ∧ c.level = .dominant ∧
        x.endsAt ≤ s.line.instant c + 5 ∧ (∀ d ∈ before, s.line.instant d + 5 < x.endsAt) ∧
        GapFree s.line (before ++ [c])) ∨
      (i = .readbackMismatch ∧ ∃ k, s.line.firstMismatch x = some k) ∨
      (i = .readbackMismatch ∧ s.line.firstMismatch x = none ∧ s.now < x.startedAt + 100 * x.octets.length)) →
    ∃ t, exec i s = .next t ∧ t.line.transmitter = none ∧ rltx t = .recessive ∧ t.con.attempt = .none ∧
      t.con.key = 0 ∧ t.con.spoken = s.con.spoken ∧ t.roster = s.roster ∧ t.supply = s.supply ∧
      t.config = s.config ∧ t.pins = s.pins ∧
      (∀ k, i = .readbackMismatch → s.line.firstMismatch x = some k →
        s.line.differs x k = true ∧ x.startedAt + 10 * k + 5 ≤ t.now) ∧
      (s.con.failures < 7 → t.con.failures = s.con.failures + 1 ∧ t.seq.runp = s.seq.runp ∧
        t.seq.commitment = s.seq.commitment ∧ t.adm.conditions = s.adm.conditions ∧ t.adm.view = s.adm.view ∧
        (b.kind ≠ .claim ∨ s.con.withdrawn = false → t.con.releaseSlot = s.con.releaseSlot ∧
          t.con.claimSlot = s.con.claimSlot ∧ t.con.presenceDue = s.con.presenceDue ∧
          t.seq = { s.seq with trip := t.seq.trip } ∧ t.adm = s.adm ∧
          (b.kind ≠ .claim → t.seq = s.seq ∧ t.link = s.link) ∧
          (b.kind = .release → t.con.superseded = false) ∧
          (b.kind = .claim → ∀ y, s.seq.trip = some y → y.phase = .armed →
            t.seq.trip = some { y with phase := .pending, step := none })) ∧
        (b.kind = .claim → s.con.withdrawn = true → t.con.claimSlot = none ∧ t.con.withdrawn = false ∧
          ∀ y, s.seq.trip = some y → t.seq.trip = none ∧ t.adm.ownDemand = none ∧ t.con.presenceDue = true ∧
            t.link.attention = true ∧ t.seq.shedOwed = false ∧
            (s.seq.shedOwed = false → t.seq.state = y.origin.home ∧ t.con.releaseSlot = s.con.releaseSlot) ∧
            (s.seq.shedOwed = true → t.seq.state = .parked ∧ t.con.releaseSlot = some (shedRelease y.id) ∧
              ∃ since, t.seq.shedHold = .timing since) ∧
            (∀ id, s.link.reply = .held id → t.link.reply =
              .sending (linkFrame (statusOctet false false true) [octet t.seq.state.code])))) ∧
      (s.con.failures = 7 → t.seq.state = .fallback ∧ t.con.failures = 0 ∧ OutboundClear t ∧ t.seq.trip = none ∧
        t.seq.runp = false ∧ t.seq.spd = .p25 ∧ t.seq.emop = true ∧ t.seq.shdn = false ∧ t.seq.commitment = 0 ∧
        t.seq.landedMark = (s.seq.report.position == .atLanding) ∧ t.seq.shedOwed = false ∧
        t.adm.ownDemand = none ∧ t.seq.shedHold = .clear ∧ t.link.attention = true ∧
        ((∀ id, s.link.reply ≠ .held id) → t.link.reply = s.link.reply) ∧
        (∀ id, s.link.reply = .held id → (b.kind ≠ .claim ∨ s.con.withdrawn = false ∨ s.seq.trip = none →
            t.link.reply = .sending (linkFrame (statusOctet false false true) [octet SeqState.fallback.code])) ∧
          (∀ y, b.kind = .claim → s.con.withdrawn = true → s.seq.trip = some y →
            t.link.reply = .sending (linkFrame (statusOctet false false true)
              [octet (if s.seq.shedOwed then SeqState.parked else y.origin.home).code]))))

/-- The own message, whole and alone on the line, completes at the recognition of its end (R87, R113): the station has spoken, the
filters take it with origin OWN, a CLAIM with S above 0 restarts a settle timer that is not STOPPED (R73). A RELEASE sets the
draw, and an ENDING record is NONE (R119, R142). A PRESENCE is due only if marked again. A CLAIM sets the standing and offers
its stamp; then a RUN is RUNNING, SPD at its step, RUNP asserted (R136), a WAKE stands in LANDED or SERVICE_IDLE (R135, R145,
R147), a cancelled one posts its RELEASE and a shed-owed one, cancelled by the car controller too or not, its SHED RELEASE to 0
and PARKED, with an answer that waits TOO_LATE (R144, R155). The record is kept for a TRIP-CANCEL of that very instant (R115, log
45). A stamp that
floors a stored one is a roster change, whose shed test may move on a service car (R28, R32, R154); the states of those
forms are said for a stamp that floors none. The instant of recognition is the model's choice (logs 1 and 17), the order of
claim and stamp log 19. -/
def Obligations.OwnMessageCompletes : Prop :=
  ∀ (s : State) (changes : List LineChange) (reference : Nat) (u : LineUnit) (b : Body) (y : Sending),
    s.line.active = true → s.line.transmitter = some y → s.con.attempt = .sending b → s.seq.state.driving = true →
    s.line.recognised changes = some (reference, u) → completesOwn u y = true →
    ∃ t, exec (.endOfActivity changes) s = .next t ∧ t.now = max s.now (reference + 120) ∧
      t.line.transmitter = none ∧ t.line.active = false ∧ t.con.attempt = .none ∧ t.con.spoken = true ∧
      t.con.failures = 0 ∧ t.con.presenceTimer = .running t.now ∧ t.con.roundTimer = .running reference ∧
      Observed s t { station := s.station, body := b } true ∧
      ((∃ c, b = .claim c ∧ 0 < c.start) ∧ s.supply.settle ≠ .stopped →
        t.supply = { s.supply with settle := .running t.now }) ∧
      (¬((∃ c, b = .claim c ∧ 0 < c.start) ∧ s.supply.settle ≠ .stopped) → t.supply = s.supply) ∧
      t.config = s.config ∧ t.pins = s.pins ∧
      (∀ r, b = .release r → t.seq.commitment = r.draw ∧ t.roster = s.roster ∧
        (r.draw = 0 → t.seq.claimClass = 0 ∧ t.seq.stamp = 0) ∧
        (r.draw ≠ 0 → t.seq.claimClass = s.seq.claimClass ∧ t.seq.stamp = r.stamp) ∧
        t.con.releaseSlot = (if s.con.superseded then s.con.releaseSlot else none) ∧ t.con.superseded = false ∧
        (tripIn .ending s = true → t.seq.trip = none ∧ t.seq.state = s.seq.state ∧ t.link.attention = true)) ∧
      (∀ p, b = .presence p → t.roster = s.roster ∧ t.seq.commitment = s.seq.commitment ∧
        (s.seq.trip = none → t.seq = s.seq ∧ t.con.presenceDue = s.con.remarked ∧ t.con.remarked = false)) ∧
      (∀ c, b = .claim c → t.seq.commitment = c.draw ∧ t.seq.claimClass = c.cls ∧ t.seq.stamp = c.stamp ∧
        t.con.claimSlot = none ∧ t.con.withdrawn = false ∧ t.adm.ownDemand = none ∧ t.seq.agingTimer = .stopped ∧
        t.roster = offerStamp c.stamp s.roster ∧
        (∀ x, s.seq.trip = some x → t.seq.lastClaim = some { instant := t.now, trip := { x with
          cancel := true, prior := some { draw := s.seq.commitment, stamp := s.seq.stamp } } }) ∧
        (∀ x a d e f v, s.seq.trip = some x → x.cancel = false → s.con.withdrawn = false →
          x.figures = .run a d e f → x.step = some v → t.seq.trip = some { x with phase := .running } ∧
            t.seq.spd = v ∧ t.seq.runp = true ∧ t.seq.runTimer = .running t.now ∧ t.link.attention = true ∧
            (x.purpose = .evacuation → t.seq.state = .evacRun) ∧
            (x.purpose = .service → t.seq.state = .serviceRun ∨ t.seq.state = .shedPending) ∧
            (x.purpose = .service → (∀ r ∈ s.roster.records, floored c.stamp r.stamp = r.stamp) →
              t.seq.state = .serviceRun)) ∧
        (∀ x f, s.seq.trip = some x → x.cancel = false → s.con.withdrawn = false → x.figures = .wake f →
          t.seq.trip = none ∧ t.seq.runp = s.seq.runp ∧ t.seq.spd = s.seq.spd ∧ t.con.presenceDue = true ∧
            t.link.attention = true ∧
            (x.purpose = .evacuation → t.seq.state = .landed ∧ t.seq.dwellTimer = .running t.now) ∧
            (x.purpose = .service → (∀ r ∈ s.roster.records, floored c.stamp r.stamp = r.stamp) →
              t.seq.state = .serviceIdle ∧ t.seq.idleTimer = .running t.now)) ∧
        (∀ x, s.seq.trip = some x → x.cancel = true ∨ s.con.withdrawn = true →
          t.seq.trip = none ∧ t.seq.runp = s.seq.runp ∧ t.con.presenceDue = true ∧ t.link.attention = true ∧
            (∀ id, s.link.reply = .held id → t.link.reply = .sending (linkFrame (statusOctet false true true) []) ∧
              t.link.reason = .tooLate ∧ t.link.detail = x.id.val) ∧
            (∀ p, x.prior = some p → s.seq.shedOwed = false →
              (∀ r ∈ s.roster.records, floored c.stamp r.stamp = r.stamp) →
              t.seq.state = x.origin.home ∧ t.con.releaseSlot =
                some { reason := .cancelled, tripId := x.id, draw := p.draw
                       stamp := if p.draw = 0 then 0 else p.stamp }) ∧
            (s.seq.shedOwed = true → t.seq.state = .parked ∧ t.seq.shedOwed = false ∧
              t.con.releaseSlot = some (shedRelease x.id) ∧ t.seq.shedHold = .timing t.now)))

/-! ### The sequencer's timers -/

/-- The start window expires (R122, R123) and the join timer expires (R124, R127): NO_SUPPLY, and ASSESS with PRESENCE due,
where a fresh report is acted on at once. The instants are the model's clock (log 1). -/
def Obligations.WaitingEnds : Prop :=
  (∀ (s : State) (since : Nat), s.seq.state = .awaitSupply → s.seq.startWindow = .running since →
    s.supply.good = false →
    ∃ t, exec .startWindowExpiry s = .next t ∧ t.now = max s.now (since + s.seq.startWindowLength) ∧
      t.seq = { s.seq with state := .noSupply, startWindow := .stopped, shdn := false } ∧
      t.link = { s.link with attention := true } ∧ t = { s with now := t.now, seq := t.seq, link := t.link }) ∧
  (∀ (s : State) (since : Nat), s.seq.state = .joining → s.seq.joinTimer = .running since → s.seq.trip = none →
    ∃ t, exec .joinTimerExpiry s = .next t ∧
      t.now = max s.now (since + 2 * ((conf s).reportInterval * 100000) + 9200) ∧ t.seq.joinTimer = .stopped ∧
      t.con.presenceDue = true ∧ t.link.attention = true ∧
      (s.seq.report.fresh = false → t.seq.state = .assess ∧ t.seq.trip = none) ∧
      (s.seq.report.fresh = true → t.seq.state = .evacWait ∧
        (s.seq.report.position ≠ .atLanding → t.seq.trip = none ∧ t.con.claimSlot = s.con.claimSlot) ∧
        (s.seq.report.position = .atLanding →
          t.seq.trip = some { id := s.seq.tripCounter, purpose := .evacuation
                              cls := if s.seq.occupancy then 1 else 2, origin := .assess
                              figures := .wake { draw := ((conf s).stby : Int), start := (conf s).stby } } ∧
          t.con.claimSlot = some { kind := .wake, tripId := s.seq.tripCounter })) ∧
      t.seq = { s.seq with
        state := t.seq.state, shdn := false, joinTimer := .stopped, trip := t.seq.trip
        tripCounter := t.seq.tripCounter, lastTripId := t.seq.lastTripId } ∧
      t.con = { s.con with claimSlot := t.con.claimSlot, presenceDue := true, remarked := t.con.remarked } ∧
      t = { s with now := t.now, seq := t.seq, adm := t.adm, con := t.con, link := { s.link with attention := true } })

/-- The occupancy hold expires (R126) and the aging time expires (R55): an evacuation trip is of class 2, an unaged service
trip whose CLAIM has not completed of class 3; each change of class sets ATTENTION and changes no other field of the record.
The instants are the model's clock (log 1). -/
def Obligations.ClassesChange : Prop :=
  (∀ (s : State) (since : Nat), s.seq.occupancyHold = .running since →
    ∃ t, exec .occupancyHoldExpiry s = .next t ∧ t.now = max s.now (since + 3000000) ∧
      t.seq = { s.seq with occupancy := false, occupancyHold := .stopped, trip := t.seq.trip } ∧
      (∀ x, s.seq.trip = some x → x.purpose = .evacuation → t.seq.trip = some { x with cls := 2 }) ∧
      (∀ x, s.seq.trip = some x → x.purpose = .service → t.seq.trip = some x) ∧
      (s.seq.trip = none → t.seq.trip = none) ∧
      (t.seq.trip ≠ s.seq.trip → t.link.attention = true) ∧
      t = { s with now := t.now, seq := t.seq, link := { s.link with attention := t.link.attention } }) ∧
  (∀ (s : State) (since : Nat), s.seq.agingTimer = .running since →
    ∃ t, exec .agingExpiry s = .next t ∧ t.now = max s.now (since + (conf s).agingTime * 1000000) ∧
      t.seq = { s.seq with agingTimer := .stopped, trip := t.seq.trip } ∧
      (∀ x, s.seq.trip = some x → (x.phase = .pending ∨ x.phase = .armed) → 4 ≤ x.cls →
        t.seq.trip = some { x with cls := 3 } ∧ t.link.attention = true) ∧
      (∀ x, s.seq.trip = some x → (x.phase = .running ∨ x.phase = .ending ∨ x.cls ≤ 3) → t.seq.trip = some x) ∧
      t = { s with now := t.now, seq := t.seq, link := { s.link with attention := t.link.attention } })

/-- The run limit expires in EVAC_RUN, SERVICE_RUN or SHED_PENDING (R143, R156): RUNP negated, OVERTIME raised, the car locked
out, the record NONE, a RELEASE to STBY posted, ASSESS entered to wait for a new report. In FALLBACK (R161) no RELEASE is
posted, the commitment becomes STBY and the car stays there. The instants are the model's clock (log 1). -/
def Obligations.RunLimitStopsCar : Prop :=
  ∀ (s : State) (x : Trip) (since : Nat), s.seq.trip = some x → x.phase = .running →
    s.seq.runTimer = .running since →
    ((s.seq.state = .evacRun ∨ s.seq.state = .serviceRun ∨ s.seq.state = .shedPending) →
    ∃ t, exec .runLimitExpiry s = .next t ∧ t.now = max s.now (since + (conf s).runLimit * 1000000) ∧
      t.seq.state = .assess ∧ t.seq.runp = false ∧ t.seq.spd = .p25 ∧ t.seq.shdn = false ∧ t.seq.lockout = true ∧
      t.adm.conditions.overtime = true ∧ t.seq.trip = none ∧ t.seq.runTimer = .stopped ∧
      t.seq.report = { s.seq.report with fresh := false } ∧
      t.con.releaseSlot = some { reason := .overtime, tripId := x.id, draw := ((conf s).stby : Int)
                                 stamp := if (conf s).stby = 0 then 0 else s.seq.stamp } ∧
      t.con.presenceDue = true ∧ t.link.attention = true ∧
      t.seq = { s.seq with
        state := .assess, runp := false, spd := .p25, shdn := false, lockout := true, trip := none
        runTimer := .stopped, agingTimer := .stopped, report := t.seq.report } ∧
      t.con = { s.con with
        attempt := t.con.attempt, key := t.con.key, slotDeadline := t.con.slotDeadline
        releaseSlot := t.con.releaseSlot, superseded := t.con.superseded, presenceDue := true
        remarked := t.con.remarked } ∧
      t.adm = { s.adm with
        conditions := { s.adm.conditions with overtime := true }, patience := .stopped, ownDemand := none } ∧
      t = { s with now := t.now, seq := t.seq, adm := t.adm, con := t.con, link := { s.link with attention := true } }) ∧
    (s.seq.state = .fallback → ∃ t, exec .runLimitExpiry s = .next t ∧
      t.now = max s.now (since + (conf s).runLimit * 1000000) ∧
      t.seq = { s.seq with
        runp := false, spd := .p25, lockout := true, trip := none, runTimer := .stopped, agingTimer := .stopped
        commitment := ((conf s).stby : Int) } ∧
      t.adm = { s.adm with
        conditions := { s.adm.conditions with overtime := true }, patience := .stopped, ownDemand := none } ∧
      t = { s with now := t.now, seq := t.seq, adm := t.adm, link := { s.link with attention := true } })

/-- The landing dwell expires (R145) and the idle timer expires (R147): a selected car that is not locked out enters
service, every other car posts a PARK RELEASE to 0 and parks, and so does an idle one. The instants are the model's clock
(log 1). -/
def Obligations.DwellAndIdleEnd : Prop :=
  ∀ (s : State) (since : Nat) (i : Instr) (limit : Nat),
    ((i = .landingDwellExpiry ∧ s.seq.state = .landed ∧ s.seq.dwellTimer = .running since ∧
        limit = (conf s).dwell * 1000000) ∨
      (i = .idleTimerExpiry ∧ s.seq.state = .serviceIdle ∧ s.seq.idleTimer = .running since ∧
        limit = (conf s).idleTime * 1000000)) →
    ∃ t, exec i s = .next t ∧ t.now = max s.now (since + limit) ∧ t.con.presenceDue = true ∧
      t.link.attention = true ∧
      (i = .landingDwellExpiry → s.seq.serviceSelected = true → s.seq.lockout = false →
        t.seq.state = .serviceIdle ∧ t.seq.idleTimer = .running t.now ∧ t.con.releaseSlot = s.con.releaseSlot) ∧
      (i = .idleTimerExpiry ∨ s.seq.serviceSelected = false ∨ s.seq.lockout = true →
        t.seq.state = .parked ∧ t.con.releaseSlot =
          some { reason := .park, tripId := s.seq.lastTripId, draw := 0, stamp := 0 }) ∧
      (i = .landingDwellExpiry → t.seq.dwellTimer = .stopped) ∧
      (i = .idleTimerExpiry → t.seq.idleTimer = .stopped) ∧
      t.seq = { s.seq with
        state := t.seq.state, shdn := false, dwellTimer := t.seq.dwellTimer, idleTimer := t.seq.idleTimer
        trip := t.seq.trip } ∧
      (s.con.attempt.isWaiting .claim = false → t.seq.trip = s.seq.trip ∧ t.con.attempt = s.con.attempt) ∧
      t.con = { s.con with
        attempt := t.con.attempt, key := t.con.key, slotDeadline := t.con.slotDeadline
        releaseSlot := t.con.releaseSlot, superseded := t.con.superseded, presenceDue := true
        remarked := t.con.remarked } ∧
      t = { s with now := t.now, seq := t.seq, con := t.con, link := { s.link with attention := true } }

/-- The evac patience expires (R58): the demand published is N at 25, or STBY, once a record, with PRESENCE due and
ATTENTION. The shed hold timer expires (R157): CLEAR, or AWAIT_DEMAND while the roster yields a demand. The instants are the
model's clock (log 1). -/
def Obligations.PatienceAndShedHoldEnd : Prop :=
  (∀ (s : State) (x : Trip) (since : Nat), s.adm.patience = .running since → s.seq.trip = some x →
    s.seq.state.driving = true →
    ∃ t, exec .patienceExpiry s = .next t ∧ t.now = max s.now (since + (conf s).patience * 1000000) ∧
      t.adm.patience = .expired ∧
      (s.adm.ownDemand = none → t.con.presenceDue = true ∧ t.link = { s.link with attention := true } ∧
        (∀ a b c d, x.figures = .run a b c d → t.adm.ownDemand = some a.draw) ∧
        (∀ f, x.figures = .wake f → t.adm.ownDemand = some f.draw)) ∧
      (s.adm.ownDemand ≠ none → t.adm.ownDemand = s.adm.ownDemand ∧ t.con = s.con ∧ t.link = s.link) ∧
      t.seq = s.seq ∧ t.adm.conditions = s.adm.conditions ∧ t.adm.view = s.adm.view ∧
      t.con.attempt = s.con.attempt ∧ t.roster = s.roster ∧ t.supply = s.supply ∧ t.line = s.line ∧
      t.config = s.config ∧ t.pins = s.pins) ∧
  (∀ (s : State) (since : Nat), s.seq.shedHold = .timing since →
    ∃ h, exec .shedHoldExpiry s = .next { s with
        now := max s.now (since + (conf s).holdTime * 1000000), seq := { s.seq with shedHold := h } } ∧
      ((∀ r ∈ s.roster.records, r.demand = none) → h = .clear) ∧
      ((∃ r ∈ s.roster.records, r.demand ≠ none) → h = .awaitDemand))

/-- The fallback windows (R159, R161). With a window of W and a census of C the offset is the time since the session origin modulo C
× W; the own window holds the offsets from (station − 1) × W up to, not including, station × W, its first half those up to (station
− 1) × W + W / 2. A PENDING record starts in the first half, at the very instant of its close if the command comes then (log 43),
else at the next opening: a run at 25 with the run timer, a wake only commits STBY; at the close of the own window a commitment
held there becomes 0, unless a run goes on. Without a session origin the offset counts from 0 (log 38); the instants are the
model's clock (logs 1 and 29). -/
def Obligations.FallbackWindowActs : Prop :=
  ∀ (s : State) (W offset opens : Nat), W = (conf s).window * 1000000 →
    offset = (s.now - s.seq.sessionOrigin.getD 0) % ((conf s).census * W) → opens = (s.station - 1) * W →
    (windowOpen s = true ↔ opens ≤ offset ∧ offset < s.station * W) ∧
    (firstHalfOpen s = true ↔ opens ≤ offset ∧ offset < opens + W / 2) ∧
    (timeToOpening s = if offset < opens then opens - offset else opens + (conf s).census * W - offset) ∧
    (∀ x : Trip, s.seq.state = .fallback → s.seq.trip = some x → x.phase = .pending →
      ∃ t, exec .fallbackTripStart s = .next t ∧
        (opens ≤ offset → offset ≤ opens + W / 2 → t.now = s.now) ∧
        (offset < opens → t.now = s.now + (opens - offset)) ∧
        (opens + W / 2 < offset → t.now = s.now + (opens + (conf s).census * W - offset)) ∧
        t.seq.state = .fallback ∧ t.seq.stamp = 0 ∧ t.seq.claimClass = x.cls ∧ t.link.attention = true ∧
        (∀ a b c d, x.figures = .run a b c d → t.seq.trip = some { x with phase := .running } ∧ t.seq.runp = true ∧
          t.seq.spd = .p25 ∧ t.seq.runTimer = .running t.now ∧ t.seq.commitment = a.draw) ∧
        (∀ f, x.figures = .wake f → t.seq.trip = none ∧ t.seq.runp = s.seq.runp ∧
          t.seq.commitment = ((conf s).stby : Int)) ∧
        t.con = s.con ∧ t.roster = s.roster ∧ t.supply = s.supply ∧ t.line = s.line ∧ t.config = s.config ∧
        t.pins = s.pins) ∧
    (s.seq.state = .fallback → tripIn .running s = false →
      ∃ t, exec .ownWindowClose s = .next t ∧
        (opens ≤ offset → offset < s.station * W → t.now = s.now + (s.station * W - offset)) ∧
        (offset < opens ∨ s.station * W ≤ offset → t.now = s.now) ∧
        t = { s with now := t.now, seq := { s.seq with commitment := 0, claimClass := 0, stamp := 0 } })

end
end

