-- ==== Sys2Proof/Laws/Frames.lean ====
section
/-!
SUPPORT. What each shared operation leaves as it was, one lemma for each, tagged simp: a proof about a command reads a field that an
operation does not touch without unfolding it.
-/

namespace Sys2Proof.Machine

@[simp] theorem ContentionUnit.noAttempt_keeps (c : ContentionUnit) :
    c.noAttempt.attempt = .none ∧ c.noAttempt.spoken = c.spoken ∧ c.noAttempt.roundOpen = c.roundOpen :=
  ⟨rfl, rfl, rfl⟩

@[simp] theorem ContentionUnit.completed_keeps (c : ContentionUnit) (n : Nat) :
    (c.completed n).attempt = .none ∧ (c.completed n).spoken = true ∧ (c.completed n).roundOpen = c.roundOpen :=
  ⟨rfl, rfl, rfl⟩

@[simp] theorem attend_keeps (s : State) :
    (attend s).now = s.now ∧ (attend s).pending = s.pending ∧
    (attend s).freeCount = s.freeCount ∧ (attend s).pins = s.pins ∧
    (attend s).station = s.station ∧ (attend s).config = s.config ∧
    (attend s).seq = s.seq ∧ (attend s).adm = s.adm ∧
    (attend s).supply = s.supply ∧ (attend s).roster = s.roster ∧
    (attend s).line = s.line ∧ (attend s).con = s.con ∧
    (attend s).link.queue = s.link.queue ∧ (attend s).link.overrun = s.link.overrun ∧
    (attend s).link.accept = s.link.accept ∧ (attend s).link.reject = s.link.reject ∧
    (attend s).link.receiver = s.link.receiver := by
  refine ⟨?_, ?_, ?_, ?_, ?_, ?_, ?_, ?_, ?_, ?_, ?_, ?_, ?_, ?_, ?_, ?_, ?_⟩ <;> rfl

@[simp] theorem raise_keeps (k : Condition) (s : State) :
    (raise k s).now = s.now ∧ (raise k s).pending = s.pending ∧
    (raise k s).freeCount = s.freeCount ∧ (raise k s).pins = s.pins ∧
    (raise k s).station = s.station ∧ (raise k s).config = s.config ∧
    (raise k s).seq = s.seq ∧ (raise k s).supply = s.supply ∧
    (raise k s).roster = s.roster ∧ (raise k s).line = s.line ∧
    (raise k s).con = s.con ∧ (raise k s).link.queue = s.link.queue ∧
    (raise k s).link.overrun = s.link.overrun ∧ (raise k s).link.accept = s.link.accept ∧
    (raise k s).link.reject = s.link.reject ∧ (raise k s).link.receiver = s.link.receiver := by
  refine ⟨?_, ?_, ?_, ?_, ?_, ?_, ?_, ?_, ?_, ?_, ?_, ?_, ?_, ?_, ?_, ?_⟩ <;>
    first | rfl | (simp only [raise]; (repeat' split) <;> simp [*])

@[simp] theorem raiseIf_keeps (p : Bool) (k : Condition) (s : State) :
    (raiseIf p k s).now = s.now ∧ (raiseIf p k s).pending = s.pending ∧
    (raiseIf p k s).freeCount = s.freeCount ∧ (raiseIf p k s).pins = s.pins ∧
    (raiseIf p k s).station = s.station ∧ (raiseIf p k s).config = s.config ∧
    (raiseIf p k s).seq = s.seq ∧ (raiseIf p k s).supply = s.supply ∧
    (raiseIf p k s).roster = s.roster ∧ (raiseIf p k s).line = s.line ∧
    (raiseIf p k s).con = s.con ∧ (raiseIf p k s).link.queue = s.link.queue ∧
    (raiseIf p k s).link.overrun = s.link.overrun ∧ (raiseIf p k s).link.accept = s.link.accept ∧
    (raiseIf p k s).link.reject = s.link.reject ∧ (raiseIf p k s).link.receiver = s.link.receiver := by
  refine ⟨?_, ?_, ?_, ?_, ?_, ?_, ?_, ?_, ?_, ?_, ?_, ?_, ?_, ?_, ?_, ?_⟩ <;>
    first | rfl | (simp only [raiseIf]; (repeat' split) <;> simp [*])

@[simp] theorem passTo_keeps (t : Nat) (s : State) :
    (passTo t s).pending = s.pending ∧ (passTo t s).freeCount = s.freeCount ∧
    (passTo t s).pins = s.pins ∧ (passTo t s).station = s.station ∧
    (passTo t s).config = s.config ∧ (passTo t s).seq = s.seq ∧
    (passTo t s).adm = s.adm ∧ (passTo t s).supply = s.supply ∧
    (passTo t s).roster = s.roster ∧ (passTo t s).line = s.line ∧
    (passTo t s).con = s.con ∧ (passTo t s).link = s.link := by
  refine ⟨?_, ?_, ?_, ?_, ?_, ?_, ?_, ?_, ?_, ?_, ?_, ?_⟩ <;> rfl

@[simp] theorem passToExpiry_keeps (t : Timer) (limit : Nat) (s : State) :
    (passToExpiry t limit s).pending = s.pending ∧ (passToExpiry t limit s).freeCount = s.freeCount ∧
    (passToExpiry t limit s).pins = s.pins ∧ (passToExpiry t limit s).station = s.station ∧
    (passToExpiry t limit s).config = s.config ∧ (passToExpiry t limit s).seq = s.seq ∧
    (passToExpiry t limit s).adm = s.adm ∧ (passToExpiry t limit s).supply = s.supply ∧
    (passToExpiry t limit s).roster = s.roster ∧ (passToExpiry t limit s).line = s.line ∧
    (passToExpiry t limit s).con = s.con ∧ (passToExpiry t limit s).link = s.link := by
  refine ⟨?_, ?_, ?_, ?_, ?_, ?_, ?_, ?_, ?_, ?_, ?_, ?_⟩ <;>
    first | rfl | (simp only [passToExpiry]; (repeat' split) <;> simp [*])

@[simp] theorem idleTick_keeps (s : State) :
    (idleTick s).pending = s.pending ∧ (idleTick s).freeCount = s.freeCount ∧
    (idleTick s).pins = s.pins ∧ (idleTick s).station = s.station ∧
    (idleTick s).config = s.config ∧ (idleTick s).seq = s.seq ∧
    (idleTick s).adm = s.adm ∧ (idleTick s).supply = s.supply ∧
    (idleTick s).roster = s.roster ∧ (idleTick s).line = s.line ∧
    (idleTick s).con = s.con ∧ (idleTick s).link = s.link := by
  refine ⟨?_, ?_, ?_, ?_, ?_, ?_, ?_, ?_, ?_, ?_, ?_, ?_⟩ <;> rfl

@[simp] theorem markPresence_keeps (s : State) :
    (markPresence s).now = s.now ∧ (markPresence s).pending = s.pending ∧
    (markPresence s).freeCount = s.freeCount ∧ (markPresence s).pins = s.pins ∧
    (markPresence s).station = s.station ∧ (markPresence s).config = s.config ∧
    (markPresence s).seq = s.seq ∧ (markPresence s).adm = s.adm ∧
    (markPresence s).supply = s.supply ∧ (markPresence s).roster = s.roster ∧
    (markPresence s).line = s.line ∧ (markPresence s).link = s.link ∧
    (markPresence s).con.spoken = s.con.spoken ∧ (markPresence s).con.roundOpen = s.con.roundOpen ∧
    (markPresence s).con.attempt = s.con.attempt := by
  refine ⟨?_, ?_, ?_, ?_, ?_, ?_, ?_, ?_, ?_, ?_, ?_, ?_, ?_, ?_, ?_⟩ <;>
    first | rfl | (simp only [markPresence]; (repeat' split) <;> simp [*])

@[simp] theorem changeTrip_keeps (t : Option Trip) (s : State) :
    (changeTrip t s).now = s.now ∧ (changeTrip t s).pending = s.pending ∧
    (changeTrip t s).freeCount = s.freeCount ∧ (changeTrip t s).pins = s.pins ∧
    (changeTrip t s).station = s.station ∧ (changeTrip t s).config = s.config ∧
    (changeTrip t s).adm = s.adm ∧ (changeTrip t s).supply = s.supply ∧
    (changeTrip t s).roster = s.roster ∧ (changeTrip t s).line = s.line ∧
    (changeTrip t s).con = s.con ∧ (changeTrip t s).seq.state = s.seq.state ∧
    (changeTrip t s).seq.runp = s.seq.runp ∧ (changeTrip t s).link.queue = s.link.queue ∧
    (changeTrip t s).link.overrun = s.link.overrun ∧ (changeTrip t s).link.accept = s.link.accept ∧
    (changeTrip t s).link.reject = s.link.reject ∧ (changeTrip t s).link.receiver = s.link.receiver ∧
    (changeTrip t s).seq.duplicate = s.seq.duplicate ∧ (changeTrip t s).seq.occupancy = s.seq.occupancy ∧
    (changeTrip t s).seq.serviceSelected = s.seq.serviceSelected ∧ (changeTrip t s).seq.sessionOrigin = s.seq.sessionOrigin ∧
    (changeTrip t s).seq.tripCounter = s.seq.tripCounter := by
  refine ⟨?_, ?_, ?_, ?_, ?_, ?_, ?_, ?_, ?_, ?_, ?_, ?_, ?_, ?_, ?_, ?_, ?_, ?_, ?_, ?_, ?_, ?_, ?_⟩ <;> rfl

@[simp] theorem claimLost_keeps (s : State) :
    (claimLost s).now = s.now ∧ (claimLost s).pending = s.pending ∧
    (claimLost s).freeCount = s.freeCount ∧ (claimLost s).pins = s.pins ∧
    (claimLost s).station = s.station ∧ (claimLost s).config = s.config ∧
    (claimLost s).adm = s.adm ∧ (claimLost s).supply = s.supply ∧
    (claimLost s).roster = s.roster ∧ (claimLost s).line = s.line ∧
    (claimLost s).con = s.con ∧ (claimLost s).seq.state = s.seq.state ∧
    (claimLost s).seq.runp = s.seq.runp ∧ (claimLost s).link.queue = s.link.queue ∧
    (claimLost s).link.overrun = s.link.overrun ∧ (claimLost s).link.accept = s.link.accept ∧
    (claimLost s).link.reject = s.link.reject ∧ (claimLost s).link.receiver = s.link.receiver ∧
    (claimLost s).seq.duplicate = s.seq.duplicate ∧ (claimLost s).seq.occupancy = s.seq.occupancy ∧
    (claimLost s).seq.serviceSelected = s.seq.serviceSelected ∧ (claimLost s).seq.sessionOrigin = s.seq.sessionOrigin ∧
    (claimLost s).seq.tripCounter = s.seq.tripCounter := by
  refine ⟨?_, ?_, ?_, ?_, ?_, ?_, ?_, ?_, ?_, ?_, ?_, ?_, ?_, ?_, ?_, ?_, ?_, ?_, ?_, ?_, ?_, ?_, ?_⟩ <;>
    first | rfl | (simp only [claimLost]; (repeat' split) <;> simp [*])

@[simp] theorem abandonAttempt_keeps (s : State) :
    (abandonAttempt s).now = s.now ∧ (abandonAttempt s).pending = s.pending ∧
    (abandonAttempt s).freeCount = s.freeCount ∧ (abandonAttempt s).pins = s.pins ∧
    (abandonAttempt s).station = s.station ∧ (abandonAttempt s).config = s.config ∧
    (abandonAttempt s).adm = s.adm ∧ (abandonAttempt s).supply = s.supply ∧
    (abandonAttempt s).roster = s.roster ∧ (abandonAttempt s).line = s.line ∧
    (abandonAttempt s).seq.state = s.seq.state ∧ (abandonAttempt s).seq.runp = s.seq.runp ∧
    (abandonAttempt s).con.spoken = s.con.spoken ∧ (abandonAttempt s).con.roundOpen = s.con.roundOpen ∧
    (abandonAttempt s).link.queue = s.link.queue ∧ (abandonAttempt s).link.overrun = s.link.overrun ∧
    (abandonAttempt s).link.accept = s.link.accept ∧ (abandonAttempt s).link.reject = s.link.reject ∧
    (abandonAttempt s).link.receiver = s.link.receiver ∧ (abandonAttempt s).seq.duplicate = s.seq.duplicate ∧
    (abandonAttempt s).seq.occupancy = s.seq.occupancy ∧ (abandonAttempt s).seq.serviceSelected = s.seq.serviceSelected ∧
    (abandonAttempt s).seq.sessionOrigin = s.seq.sessionOrigin ∧ (abandonAttempt s).seq.tripCounter = s.seq.tripCounter := by
  refine ⟨?_, ?_, ?_, ?_, ?_, ?_, ?_, ?_, ?_, ?_, ?_, ?_, ?_, ?_, ?_, ?_, ?_, ?_, ?_, ?_, ?_, ?_, ?_, ?_⟩ <;>
    first | rfl | (simp only [abandonAttempt]; (repeat' split) <;> simp [*])

@[simp] theorem postRelease_keeps (r : Release) (s : State) :
    (postRelease r s).now = s.now ∧ (postRelease r s).pending = s.pending ∧
    (postRelease r s).freeCount = s.freeCount ∧ (postRelease r s).pins = s.pins ∧
    (postRelease r s).station = s.station ∧ (postRelease r s).config = s.config ∧
    (postRelease r s).adm = s.adm ∧ (postRelease r s).supply = s.supply ∧
    (postRelease r s).roster = s.roster ∧ (postRelease r s).line = s.line ∧
    (postRelease r s).seq.state = s.seq.state ∧ (postRelease r s).seq.runp = s.seq.runp ∧
    (postRelease r s).con.spoken = s.con.spoken ∧ (postRelease r s).con.roundOpen = s.con.roundOpen ∧
    (postRelease r s).link.queue = s.link.queue ∧ (postRelease r s).link.overrun = s.link.overrun ∧
    (postRelease r s).link.accept = s.link.accept ∧ (postRelease r s).link.reject = s.link.reject ∧
    (postRelease r s).link.receiver = s.link.receiver ∧ (postRelease r s).seq.duplicate = s.seq.duplicate ∧
    (postRelease r s).seq.occupancy = s.seq.occupancy ∧ (postRelease r s).seq.serviceSelected = s.seq.serviceSelected ∧
    (postRelease r s).seq.sessionOrigin = s.seq.sessionOrigin ∧ (postRelease r s).seq.tripCounter = s.seq.tripCounter := by
  refine ⟨?_, ?_, ?_, ?_, ?_, ?_, ?_, ?_, ?_, ?_, ?_, ?_, ?_, ?_, ?_, ?_, ?_, ?_, ?_, ?_, ?_, ?_, ?_, ?_⟩ <;>
    first | rfl | (simp only [postRelease]; (repeat' split) <;> simp [*])

@[simp] theorem withdrawClaim_keeps (s : State) :
    (withdrawClaim s).now = s.now ∧ (withdrawClaim s).pending = s.pending ∧
    (withdrawClaim s).freeCount = s.freeCount ∧ (withdrawClaim s).pins = s.pins ∧
    (withdrawClaim s).station = s.station ∧ (withdrawClaim s).config = s.config ∧
    (withdrawClaim s).adm = s.adm ∧ (withdrawClaim s).supply = s.supply ∧
    (withdrawClaim s).roster = s.roster ∧ (withdrawClaim s).line = s.line ∧
    (withdrawClaim s).seq.state = s.seq.state ∧ (withdrawClaim s).seq.runp = s.seq.runp ∧
    (withdrawClaim s).con.spoken = s.con.spoken ∧ (withdrawClaim s).con.roundOpen = s.con.roundOpen ∧
    (withdrawClaim s).link.queue = s.link.queue ∧ (withdrawClaim s).link.overrun = s.link.overrun ∧
    (withdrawClaim s).link.accept = s.link.accept ∧ (withdrawClaim s).link.reject = s.link.reject ∧
    (withdrawClaim s).link.receiver = s.link.receiver ∧ (withdrawClaim s).seq.duplicate = s.seq.duplicate ∧
    (withdrawClaim s).seq.occupancy = s.seq.occupancy ∧ (withdrawClaim s).seq.serviceSelected = s.seq.serviceSelected ∧
    (withdrawClaim s).seq.sessionOrigin = s.seq.sessionOrigin ∧ (withdrawClaim s).seq.tripCounter = s.seq.tripCounter := by
  refine ⟨?_, ?_, ?_, ?_, ?_, ?_, ?_, ?_, ?_, ?_, ?_, ?_, ?_, ?_, ?_, ?_, ?_, ?_, ?_, ?_, ?_, ?_, ?_, ?_⟩ <;>
    first | rfl | (simp only [withdrawClaim]; (repeat' split) <;> simp [*])

@[simp] theorem clearOutbound_keeps (s : State) :
    (clearOutbound s).now = s.now ∧ (clearOutbound s).pending = s.pending ∧
    (clearOutbound s).freeCount = s.freeCount ∧ (clearOutbound s).pins = s.pins ∧
    (clearOutbound s).station = s.station ∧ (clearOutbound s).config = s.config ∧
    (clearOutbound s).seq = s.seq ∧ (clearOutbound s).adm = s.adm ∧
    (clearOutbound s).supply = s.supply ∧ (clearOutbound s).roster = s.roster ∧
    (clearOutbound s).link = s.link ∧ (clearOutbound s).con.spoken = s.con.spoken ∧
    (clearOutbound s).con.roundOpen = s.con.roundOpen := by
  refine ⟨?_, ?_, ?_, ?_, ?_, ?_, ?_, ?_, ?_, ?_, ?_, ?_, ?_⟩ <;> rfl

@[simp] theorem createTrip_keeps (p : Purpose) (c : Nat) (o : Origin) (f : Figures) (s : State) :
    (createTrip p c o f s).now = s.now ∧ (createTrip p c o f s).pending = s.pending ∧
    (createTrip p c o f s).freeCount = s.freeCount ∧ (createTrip p c o f s).pins = s.pins ∧
    (createTrip p c o f s).station = s.station ∧ (createTrip p c o f s).config = s.config ∧
    (createTrip p c o f s).supply = s.supply ∧ (createTrip p c o f s).roster = s.roster ∧
    (createTrip p c o f s).line = s.line ∧ (createTrip p c o f s).con = s.con ∧
    (createTrip p c o f s).seq.state = s.seq.state ∧ (createTrip p c o f s).seq.runp = s.seq.runp ∧
    (createTrip p c o f s).link.queue = s.link.queue ∧ (createTrip p c o f s).link.overrun = s.link.overrun ∧
    (createTrip p c o f s).link.accept = s.link.accept ∧ (createTrip p c o f s).link.reject = s.link.reject ∧
    (createTrip p c o f s).link.receiver = s.link.receiver ∧ (createTrip p c o f s).seq.duplicate = s.seq.duplicate ∧
    (createTrip p c o f s).seq.occupancy = s.seq.occupancy ∧ (createTrip p c o f s).seq.serviceSelected = s.seq.serviceSelected ∧
    (createTrip p c o f s).seq.sessionOrigin = s.seq.sessionOrigin := by
  refine ⟨?_, ?_, ?_, ?_, ?_, ?_, ?_, ?_, ?_, ?_, ?_, ?_, ?_, ?_, ?_, ?_, ?_, ?_, ?_, ?_, ?_⟩ <;> rfl

@[simp] theorem postClaim_keeps (s : State) :
    (postClaim s).now = s.now ∧ (postClaim s).pending = s.pending ∧
    (postClaim s).freeCount = s.freeCount ∧ (postClaim s).pins = s.pins ∧
    (postClaim s).station = s.station ∧ (postClaim s).config = s.config ∧
    (postClaim s).seq = s.seq ∧ (postClaim s).adm = s.adm ∧
    (postClaim s).supply = s.supply ∧ (postClaim s).roster = s.roster ∧
    (postClaim s).line = s.line ∧ (postClaim s).link = s.link ∧
    (postClaim s).con.spoken = s.con.spoken ∧ (postClaim s).con.roundOpen = s.con.roundOpen ∧
    (postClaim s).con.attempt = s.con.attempt := by
  refine ⟨?_, ?_, ?_, ?_, ?_, ?_, ?_, ?_, ?_, ?_, ?_, ?_, ?_, ?_, ?_⟩ <;>
    first | rfl | (simp only [postClaim]; (repeat' split) <;> simp [*])

@[simp] theorem endTrip_keeps (s : State) :
    (endTrip s).now = s.now ∧ (endTrip s).pending = s.pending ∧
    (endTrip s).freeCount = s.freeCount ∧ (endTrip s).pins = s.pins ∧
    (endTrip s).station = s.station ∧ (endTrip s).config = s.config ∧
    (endTrip s).supply = s.supply ∧ (endTrip s).roster = s.roster ∧
    (endTrip s).line = s.line ∧ (endTrip s).con = s.con ∧
    (endTrip s).seq.state = s.seq.state ∧ (endTrip s).seq.runp = s.seq.runp ∧
    (endTrip s).link.queue = s.link.queue ∧ (endTrip s).link.overrun = s.link.overrun ∧
    (endTrip s).link.accept = s.link.accept ∧ (endTrip s).link.reject = s.link.reject ∧
    (endTrip s).link.receiver = s.link.receiver ∧ (endTrip s).seq.duplicate = s.seq.duplicate ∧
    (endTrip s).seq.occupancy = s.seq.occupancy ∧ (endTrip s).seq.serviceSelected = s.seq.serviceSelected ∧
    (endTrip s).seq.sessionOrigin = s.seq.sessionOrigin ∧ (endTrip s).seq.tripCounter = s.seq.tripCounter := by
  refine ⟨?_, ?_, ?_, ?_, ?_, ?_, ?_, ?_, ?_, ?_, ?_, ?_, ?_, ?_, ?_, ?_, ?_, ?_, ?_, ?_, ?_, ?_⟩ <;>
    first | rfl | (simp only [endTrip]; (repeat' split) <;> simp [*])

@[simp] theorem discardTrip_keeps (s : State) :
    (discardTrip s).now = s.now ∧ (discardTrip s).pending = s.pending ∧
    (discardTrip s).freeCount = s.freeCount ∧ (discardTrip s).pins = s.pins ∧
    (discardTrip s).station = s.station ∧ (discardTrip s).config = s.config ∧
    (discardTrip s).supply = s.supply ∧ (discardTrip s).roster = s.roster ∧
    (discardTrip s).line = s.line ∧ (discardTrip s).con = s.con ∧
    (discardTrip s).seq.state = s.seq.state ∧ (discardTrip s).seq.runp = s.seq.runp ∧
    (discardTrip s).link.queue = s.link.queue ∧ (discardTrip s).link.overrun = s.link.overrun ∧
    (discardTrip s).link.accept = s.link.accept ∧ (discardTrip s).link.reject = s.link.reject ∧
    (discardTrip s).link.receiver = s.link.receiver ∧ (discardTrip s).seq.duplicate = s.seq.duplicate ∧
    (discardTrip s).seq.occupancy = s.seq.occupancy ∧ (discardTrip s).seq.serviceSelected = s.seq.serviceSelected ∧
    (discardTrip s).seq.sessionOrigin = s.seq.sessionOrigin ∧ (discardTrip s).seq.tripCounter = s.seq.tripCounter := by
  refine ⟨?_, ?_, ?_, ?_, ?_, ?_, ?_, ?_, ?_, ?_, ?_, ?_, ?_, ?_, ?_, ?_, ?_, ?_, ?_, ?_, ?_, ?_⟩ <;>
    first | rfl | simp [discardTrip]

@[simp] theorem stopRun_keeps (s : State) :
    (stopRun s).now = s.now ∧ (stopRun s).pending = s.pending ∧
    (stopRun s).freeCount = s.freeCount ∧ (stopRun s).pins = s.pins ∧
    (stopRun s).station = s.station ∧ (stopRun s).config = s.config ∧
    (stopRun s).adm = s.adm ∧ (stopRun s).supply = s.supply ∧
    (stopRun s).roster = s.roster ∧ (stopRun s).line = s.line ∧
    (stopRun s).con = s.con ∧ (stopRun s).link = s.link ∧
    (stopRun s).seq.state = s.seq.state ∧ (stopRun s).seq.trip = s.seq.trip ∧
    (stopRun s).seq.duplicate = s.seq.duplicate ∧ (stopRun s).seq.occupancy = s.seq.occupancy ∧
    (stopRun s).seq.serviceSelected = s.seq.serviceSelected ∧ (stopRun s).seq.sessionOrigin = s.seq.sessionOrigin ∧
    (stopRun s).seq.tripCounter = s.seq.tripCounter := by
  refine ⟨?_, ?_, ?_, ?_, ?_, ?_, ?_, ?_, ?_, ?_, ?_, ?_, ?_, ?_, ?_, ?_, ?_, ?_, ?_⟩ <;> rfl

@[simp] theorem holdCar_keeps (s : State) :
    (holdCar s).now = s.now ∧ (holdCar s).pending = s.pending ∧
    (holdCar s).freeCount = s.freeCount ∧ (holdCar s).pins = s.pins ∧
    (holdCar s).station = s.station ∧ (holdCar s).config = s.config ∧
    (holdCar s).adm = s.adm ∧ (holdCar s).supply = s.supply ∧
    (holdCar s).roster = s.roster ∧ (holdCar s).line = s.line ∧
    (holdCar s).con = s.con ∧ (holdCar s).link = s.link ∧
    (holdCar s).seq.state = s.seq.state ∧ (holdCar s).seq.trip = s.seq.trip ∧
    (holdCar s).seq.duplicate = s.seq.duplicate ∧ (holdCar s).seq.occupancy = s.seq.occupancy ∧
    (holdCar s).seq.serviceSelected = s.seq.serviceSelected ∧ (holdCar s).seq.sessionOrigin = s.seq.sessionOrigin ∧
    (holdCar s).seq.tripCounter = s.seq.tripCounter := by
  refine ⟨?_, ?_, ?_, ?_, ?_, ?_, ?_, ?_, ?_, ?_, ?_, ?_, ?_, ?_, ?_, ?_, ?_, ?_, ?_⟩ <;> rfl

@[simp] theorem zeroStanding_keeps (s : State) :
    (zeroStanding s).now = s.now ∧ (zeroStanding s).pending = s.pending ∧
    (zeroStanding s).freeCount = s.freeCount ∧ (zeroStanding s).pins = s.pins ∧
    (zeroStanding s).station = s.station ∧ (zeroStanding s).config = s.config ∧
    (zeroStanding s).adm = s.adm ∧ (zeroStanding s).supply = s.supply ∧
    (zeroStanding s).roster = s.roster ∧ (zeroStanding s).line = s.line ∧
    (zeroStanding s).con = s.con ∧ (zeroStanding s).link = s.link ∧
    (zeroStanding s).seq.state = s.seq.state ∧ (zeroStanding s).seq.runp = s.seq.runp ∧
    (zeroStanding s).seq.trip = s.seq.trip ∧ (zeroStanding s).seq.duplicate = s.seq.duplicate ∧
    (zeroStanding s).seq.occupancy = s.seq.occupancy ∧ (zeroStanding s).seq.serviceSelected = s.seq.serviceSelected ∧
    (zeroStanding s).seq.sessionOrigin = s.seq.sessionOrigin ∧ (zeroStanding s).seq.tripCounter = s.seq.tripCounter := by
  refine ⟨?_, ?_, ?_, ?_, ?_, ?_, ?_, ?_, ?_, ?_, ?_, ?_, ?_, ?_, ?_, ?_, ?_, ?_, ?_, ?_⟩ <;> rfl

@[simp] theorem goTo_keeps (st : SeqState) (s : State) :
    (goTo st s).now = s.now ∧ (goTo st s).pending = s.pending ∧
    (goTo st s).freeCount = s.freeCount ∧ (goTo st s).pins = s.pins ∧
    (goTo st s).station = s.station ∧ (goTo st s).config = s.config ∧
    (goTo st s).adm = s.adm ∧ (goTo st s).supply = s.supply ∧
    (goTo st s).roster = s.roster ∧ (goTo st s).line = s.line ∧
    (goTo st s).con = s.con ∧ (goTo st s).seq.runp = s.seq.runp ∧
    (goTo st s).seq.trip = s.seq.trip ∧ (goTo st s).link.queue = s.link.queue ∧
    (goTo st s).link.overrun = s.link.overrun ∧ (goTo st s).link.accept = s.link.accept ∧
    (goTo st s).link.reject = s.link.reject ∧ (goTo st s).link.receiver = s.link.receiver ∧
    (goTo st s).seq.duplicate = s.seq.duplicate ∧ (goTo st s).seq.occupancy = s.seq.occupancy ∧
    (goTo st s).seq.serviceSelected = s.seq.serviceSelected ∧ (goTo st s).seq.sessionOrigin = s.seq.sessionOrigin ∧
    (goTo st s).seq.tripCounter = s.seq.tripCounter := by
  refine ⟨?_, ?_, ?_, ?_, ?_, ?_, ?_, ?_, ?_, ?_, ?_, ?_, ?_, ?_, ?_, ?_, ?_, ?_, ?_, ?_, ?_, ?_, ?_⟩ <;>
    first | rfl | (simp only [goTo]; (repeat' split) <;> simp [*])

@[simp] theorem enterServiceIdle_keeps (s : State) :
    (enterServiceIdle s).now = s.now ∧ (enterServiceIdle s).pending = s.pending ∧
    (enterServiceIdle s).freeCount = s.freeCount ∧ (enterServiceIdle s).pins = s.pins ∧
    (enterServiceIdle s).station = s.station ∧ (enterServiceIdle s).config = s.config ∧
    (enterServiceIdle s).adm = s.adm ∧ (enterServiceIdle s).supply = s.supply ∧
    (enterServiceIdle s).roster = s.roster ∧ (enterServiceIdle s).line = s.line ∧
    (enterServiceIdle s).seq.runp = s.seq.runp ∧ (enterServiceIdle s).seq.trip = s.seq.trip ∧
    (enterServiceIdle s).con.spoken = s.con.spoken ∧ (enterServiceIdle s).con.roundOpen = s.con.roundOpen ∧
    (enterServiceIdle s).con.attempt = s.con.attempt ∧ (enterServiceIdle s).link.queue = s.link.queue ∧
    (enterServiceIdle s).link.overrun = s.link.overrun ∧ (enterServiceIdle s).link.accept = s.link.accept ∧
    (enterServiceIdle s).link.reject = s.link.reject ∧ (enterServiceIdle s).link.receiver = s.link.receiver ∧
    (enterServiceIdle s).seq.duplicate = s.seq.duplicate ∧ (enterServiceIdle s).seq.occupancy = s.seq.occupancy ∧
    (enterServiceIdle s).seq.serviceSelected = s.seq.serviceSelected ∧ (enterServiceIdle s).seq.sessionOrigin = s.seq.sessionOrigin ∧
    (enterServiceIdle s).seq.tripCounter = s.seq.tripCounter := by
  refine ⟨?_, ?_, ?_, ?_, ?_, ?_, ?_, ?_, ?_, ?_, ?_, ?_, ?_, ?_, ?_, ?_, ?_, ?_, ?_, ?_, ?_, ?_, ?_, ?_, ?_⟩ <;>
    first | rfl | simp [enterServiceIdle]

@[simp] theorem enterParked_keeps (s : State) :
    (enterParked s).now = s.now ∧ (enterParked s).pending = s.pending ∧
    (enterParked s).freeCount = s.freeCount ∧ (enterParked s).pins = s.pins ∧
    (enterParked s).station = s.station ∧ (enterParked s).config = s.config ∧
    (enterParked s).adm = s.adm ∧ (enterParked s).supply = s.supply ∧
    (enterParked s).roster = s.roster ∧ (enterParked s).line = s.line ∧
    (enterParked s).seq.runp = s.seq.runp ∧ (enterParked s).seq.trip = s.seq.trip ∧
    (enterParked s).con.spoken = s.con.spoken ∧ (enterParked s).con.roundOpen = s.con.roundOpen ∧
    (enterParked s).con.attempt = s.con.attempt ∧ (enterParked s).link.queue = s.link.queue ∧
    (enterParked s).link.overrun = s.link.overrun ∧ (enterParked s).link.accept = s.link.accept ∧
    (enterParked s).link.reject = s.link.reject ∧ (enterParked s).link.receiver = s.link.receiver ∧
    (enterParked s).seq.duplicate = s.seq.duplicate ∧ (enterParked s).seq.occupancy = s.seq.occupancy ∧
    (enterParked s).seq.serviceSelected = s.seq.serviceSelected ∧ (enterParked s).seq.sessionOrigin = s.seq.sessionOrigin ∧
    (enterParked s).seq.tripCounter = s.seq.tripCounter := by
  refine ⟨?_, ?_, ?_, ?_, ?_, ?_, ?_, ?_, ?_, ?_, ?_, ?_, ?_, ?_, ?_, ?_, ?_, ?_, ?_, ?_, ?_, ?_, ?_, ?_, ?_⟩ <;>
    first | rfl | simp [enterParked]

@[simp] theorem enterLanded_keeps (s : State) :
    (enterLanded s).now = s.now ∧ (enterLanded s).pending = s.pending ∧
    (enterLanded s).freeCount = s.freeCount ∧ (enterLanded s).pins = s.pins ∧
    (enterLanded s).station = s.station ∧ (enterLanded s).config = s.config ∧
    (enterLanded s).adm = s.adm ∧ (enterLanded s).supply = s.supply ∧
    (enterLanded s).roster = s.roster ∧ (enterLanded s).line = s.line ∧
    (enterLanded s).seq.runp = s.seq.runp ∧ (enterLanded s).seq.trip = s.seq.trip ∧
    (enterLanded s).con.spoken = s.con.spoken ∧ (enterLanded s).con.roundOpen = s.con.roundOpen ∧
    (enterLanded s).con.attempt = s.con.attempt ∧ (enterLanded s).link.queue = s.link.queue ∧
    (enterLanded s).link.overrun = s.link.overrun ∧ (enterLanded s).link.accept = s.link.accept ∧
    (enterLanded s).link.reject = s.link.reject ∧ (enterLanded s).link.receiver = s.link.receiver ∧
    (enterLanded s).seq.duplicate = s.seq.duplicate ∧ (enterLanded s).seq.occupancy = s.seq.occupancy ∧
    (enterLanded s).seq.serviceSelected = s.seq.serviceSelected ∧ (enterLanded s).seq.sessionOrigin = s.seq.sessionOrigin ∧
    (enterLanded s).seq.tripCounter = s.seq.tripCounter := by
  refine ⟨?_, ?_, ?_, ?_, ?_, ?_, ?_, ?_, ?_, ?_, ?_, ?_, ?_, ?_, ?_, ?_, ?_, ?_, ?_, ?_, ?_, ?_, ?_, ?_, ?_⟩ <;>
    first | rfl | simp [enterLanded]

@[simp] theorem enterEvacWait_keeps (s : State) :
    (enterEvacWait s).now = s.now ∧ (enterEvacWait s).pending = s.pending ∧
    (enterEvacWait s).freeCount = s.freeCount ∧ (enterEvacWait s).pins = s.pins ∧
    (enterEvacWait s).station = s.station ∧ (enterEvacWait s).config = s.config ∧
    (enterEvacWait s).adm = s.adm ∧ (enterEvacWait s).supply = s.supply ∧
    (enterEvacWait s).roster = s.roster ∧ (enterEvacWait s).line = s.line ∧
    (enterEvacWait s).seq.runp = s.seq.runp ∧ (enterEvacWait s).seq.trip = s.seq.trip ∧
    (enterEvacWait s).con.spoken = s.con.spoken ∧ (enterEvacWait s).con.roundOpen = s.con.roundOpen ∧
    (enterEvacWait s).con.attempt = s.con.attempt ∧ (enterEvacWait s).link.queue = s.link.queue ∧
    (enterEvacWait s).link.overrun = s.link.overrun ∧ (enterEvacWait s).link.accept = s.link.accept ∧
    (enterEvacWait s).link.reject = s.link.reject ∧ (enterEvacWait s).link.receiver = s.link.receiver ∧
    (enterEvacWait s).seq.duplicate = s.seq.duplicate ∧ (enterEvacWait s).seq.occupancy = s.seq.occupancy ∧
    (enterEvacWait s).seq.serviceSelected = s.seq.serviceSelected ∧ (enterEvacWait s).seq.sessionOrigin = s.seq.sessionOrigin ∧
    (enterEvacWait s).seq.tripCounter = s.seq.tripCounter := by
  refine ⟨?_, ?_, ?_, ?_, ?_, ?_, ?_, ?_, ?_, ?_, ?_, ?_, ?_, ?_, ?_, ?_, ?_, ?_, ?_, ?_, ?_, ?_, ?_, ?_, ?_⟩ <;>
    first | rfl | simp [enterEvacWait]

@[simp] theorem enterServiceWait_keeps (s : State) :
    (enterServiceWait s).now = s.now ∧ (enterServiceWait s).pending = s.pending ∧
    (enterServiceWait s).freeCount = s.freeCount ∧ (enterServiceWait s).pins = s.pins ∧
    (enterServiceWait s).station = s.station ∧ (enterServiceWait s).config = s.config ∧
    (enterServiceWait s).adm = s.adm ∧ (enterServiceWait s).supply = s.supply ∧
    (enterServiceWait s).roster = s.roster ∧ (enterServiceWait s).line = s.line ∧
    (enterServiceWait s).seq.runp = s.seq.runp ∧ (enterServiceWait s).seq.trip = s.seq.trip ∧
    (enterServiceWait s).con.spoken = s.con.spoken ∧ (enterServiceWait s).con.roundOpen = s.con.roundOpen ∧
    (enterServiceWait s).con.attempt = s.con.attempt ∧ (enterServiceWait s).link.queue = s.link.queue ∧
    (enterServiceWait s).link.overrun = s.link.overrun ∧ (enterServiceWait s).link.accept = s.link.accept ∧
    (enterServiceWait s).link.reject = s.link.reject ∧ (enterServiceWait s).link.receiver = s.link.receiver ∧
    (enterServiceWait s).seq.duplicate = s.seq.duplicate ∧ (enterServiceWait s).seq.occupancy = s.seq.occupancy ∧
    (enterServiceWait s).seq.serviceSelected = s.seq.serviceSelected ∧ (enterServiceWait s).seq.sessionOrigin = s.seq.sessionOrigin ∧
    (enterServiceWait s).seq.tripCounter = s.seq.tripCounter := by
  refine ⟨?_, ?_, ?_, ?_, ?_, ?_, ?_, ?_, ?_, ?_, ?_, ?_, ?_, ?_, ?_, ?_, ?_, ?_, ?_, ?_, ?_, ?_, ?_, ?_, ?_⟩ <;>
    first | rfl | simp [enterServiceWait]

@[simp] theorem returnToOrigin_keeps (o : Origin) (s : State) :
    (returnToOrigin o s).now = s.now ∧ (returnToOrigin o s).pending = s.pending ∧
    (returnToOrigin o s).freeCount = s.freeCount ∧ (returnToOrigin o s).pins = s.pins ∧
    (returnToOrigin o s).station = s.station ∧ (returnToOrigin o s).config = s.config ∧
    (returnToOrigin o s).adm = s.adm ∧ (returnToOrigin o s).supply = s.supply ∧
    (returnToOrigin o s).roster = s.roster ∧ (returnToOrigin o s).line = s.line ∧
    (returnToOrigin o s).seq.runp = s.seq.runp ∧ (returnToOrigin o s).seq.trip = s.seq.trip ∧
    (returnToOrigin o s).con.spoken = s.con.spoken ∧ (returnToOrigin o s).con.roundOpen = s.con.roundOpen ∧
    (returnToOrigin o s).con.attempt = s.con.attempt ∧ (returnToOrigin o s).link.queue = s.link.queue ∧
    (returnToOrigin o s).link.overrun = s.link.overrun ∧ (returnToOrigin o s).link.accept = s.link.accept ∧
    (returnToOrigin o s).link.reject = s.link.reject ∧ (returnToOrigin o s).link.receiver = s.link.receiver ∧
    (returnToOrigin o s).seq.duplicate = s.seq.duplicate ∧ (returnToOrigin o s).seq.occupancy = s.seq.occupancy ∧
    (returnToOrigin o s).seq.serviceSelected = s.seq.serviceSelected ∧ (returnToOrigin o s).seq.sessionOrigin = s.seq.sessionOrigin ∧
    (returnToOrigin o s).seq.tripCounter = s.seq.tripCounter := by
  refine ⟨?_, ?_, ?_, ?_, ?_, ?_, ?_, ?_, ?_, ?_, ?_, ?_, ?_, ?_, ?_, ?_, ?_, ?_, ?_, ?_, ?_, ?_, ?_, ?_, ?_⟩ <;>
    first | rfl | (simp only [returnToOrigin]; (repeat' split) <;> simp [*])

@[simp] theorem postShed_keeps (id : Fin 16) (s : State) :
    (postShed id s).now = s.now ∧ (postShed id s).pending = s.pending ∧
    (postShed id s).freeCount = s.freeCount ∧ (postShed id s).pins = s.pins ∧
    (postShed id s).station = s.station ∧ (postShed id s).config = s.config ∧
    (postShed id s).adm = s.adm ∧ (postShed id s).supply = s.supply ∧
    (postShed id s).roster = s.roster ∧ (postShed id s).line = s.line ∧
    (postShed id s).seq.state = s.seq.state ∧ (postShed id s).seq.runp = s.seq.runp ∧
    (postShed id s).con.spoken = s.con.spoken ∧ (postShed id s).con.roundOpen = s.con.roundOpen ∧
    (postShed id s).link.queue = s.link.queue ∧ (postShed id s).link.overrun = s.link.overrun ∧
    (postShed id s).link.accept = s.link.accept ∧ (postShed id s).link.reject = s.link.reject ∧
    (postShed id s).link.receiver = s.link.receiver ∧ (postShed id s).seq.duplicate = s.seq.duplicate ∧
    (postShed id s).seq.occupancy = s.seq.occupancy ∧ (postShed id s).seq.serviceSelected = s.seq.serviceSelected ∧
    (postShed id s).seq.sessionOrigin = s.seq.sessionOrigin ∧ (postShed id s).seq.tripCounter = s.seq.tripCounter := by
  refine ⟨?_, ?_, ?_, ?_, ?_, ?_, ?_, ?_, ?_, ?_, ?_, ?_, ?_, ?_, ?_, ?_, ?_, ?_, ?_, ?_, ?_, ?_, ?_, ?_⟩ <;>
    first | rfl | simp [postShed]

@[simp] theorem setLockout_keeps (b : Bool) (s : State) :
    (setLockout b s).now = s.now ∧ (setLockout b s).pending = s.pending ∧
    (setLockout b s).freeCount = s.freeCount ∧ (setLockout b s).pins = s.pins ∧
    (setLockout b s).station = s.station ∧ (setLockout b s).config = s.config ∧
    (setLockout b s).adm = s.adm ∧ (setLockout b s).supply = s.supply ∧
    (setLockout b s).roster = s.roster ∧ (setLockout b s).line = s.line ∧
    (setLockout b s).link = s.link ∧ (setLockout b s).seq.state = s.seq.state ∧
    (setLockout b s).seq.runp = s.seq.runp ∧ (setLockout b s).seq.trip = s.seq.trip ∧
    (setLockout b s).con.spoken = s.con.spoken ∧ (setLockout b s).con.roundOpen = s.con.roundOpen ∧
    (setLockout b s).con.attempt = s.con.attempt ∧ (setLockout b s).seq.duplicate = s.seq.duplicate ∧
    (setLockout b s).seq.occupancy = s.seq.occupancy ∧ (setLockout b s).seq.serviceSelected = s.seq.serviceSelected ∧
    (setLockout b s).seq.sessionOrigin = s.seq.sessionOrigin ∧ (setLockout b s).seq.tripCounter = s.seq.tripCounter := by
  refine ⟨?_, ?_, ?_, ?_, ?_, ?_, ?_, ?_, ?_, ?_, ?_, ?_, ?_, ?_, ?_, ?_, ?_, ?_, ?_, ?_, ?_, ?_⟩ <;>
    first | rfl | (simp only [setLockout]; (repeat' split) <;> simp [*])

@[simp] theorem lockoutBy_keeps (p : Position) (s : State) :
    (lockoutBy p s).now = s.now ∧ (lockoutBy p s).pending = s.pending ∧
    (lockoutBy p s).freeCount = s.freeCount ∧ (lockoutBy p s).pins = s.pins ∧
    (lockoutBy p s).station = s.station ∧ (lockoutBy p s).config = s.config ∧
    (lockoutBy p s).adm = s.adm ∧ (lockoutBy p s).supply = s.supply ∧
    (lockoutBy p s).roster = s.roster ∧ (lockoutBy p s).line = s.line ∧
    (lockoutBy p s).link = s.link ∧ (lockoutBy p s).seq.state = s.seq.state ∧
    (lockoutBy p s).seq.runp = s.seq.runp ∧ (lockoutBy p s).seq.trip = s.seq.trip ∧
    (lockoutBy p s).con.spoken = s.con.spoken ∧ (lockoutBy p s).con.roundOpen = s.con.roundOpen ∧
    (lockoutBy p s).con.attempt = s.con.attempt ∧ (lockoutBy p s).seq.duplicate = s.seq.duplicate ∧
    (lockoutBy p s).seq.occupancy = s.seq.occupancy ∧ (lockoutBy p s).seq.serviceSelected = s.seq.serviceSelected ∧
    (lockoutBy p s).seq.sessionOrigin = s.seq.sessionOrigin ∧ (lockoutBy p s).seq.tripCounter = s.seq.tripCounter := by
  refine ⟨?_, ?_, ?_, ?_, ?_, ?_, ?_, ?_, ?_, ?_, ?_, ?_, ?_, ?_, ?_, ?_, ?_, ?_, ?_, ?_, ?_, ?_⟩ <;>
    first | rfl | (simp only [lockoutBy]; (repeat' split) <;> simp [*])

@[simp] theorem followOccupancy_keeps (s : State) :
    (followOccupancy s).now = s.now ∧ (followOccupancy s).pending = s.pending ∧
    (followOccupancy s).freeCount = s.freeCount ∧ (followOccupancy s).pins = s.pins ∧
    (followOccupancy s).station = s.station ∧ (followOccupancy s).config = s.config ∧
    (followOccupancy s).adm = s.adm ∧ (followOccupancy s).supply = s.supply ∧
    (followOccupancy s).roster = s.roster ∧ (followOccupancy s).line = s.line ∧
    (followOccupancy s).con = s.con ∧ (followOccupancy s).seq.state = s.seq.state ∧
    (followOccupancy s).seq.runp = s.seq.runp ∧ (followOccupancy s).link.queue = s.link.queue ∧
    (followOccupancy s).link.overrun = s.link.overrun ∧ (followOccupancy s).link.accept = s.link.accept ∧
    (followOccupancy s).link.reject = s.link.reject ∧ (followOccupancy s).link.receiver = s.link.receiver ∧
    (followOccupancy s).seq.duplicate = s.seq.duplicate ∧ (followOccupancy s).seq.occupancy = s.seq.occupancy ∧
    (followOccupancy s).seq.serviceSelected = s.seq.serviceSelected ∧ (followOccupancy s).seq.sessionOrigin = s.seq.sessionOrigin ∧
    (followOccupancy s).seq.tripCounter = s.seq.tripCounter := by
  refine ⟨?_, ?_, ?_, ?_, ?_, ?_, ?_, ?_, ?_, ?_, ?_, ?_, ?_, ?_, ?_, ?_, ?_, ?_, ?_, ?_, ?_, ?_, ?_⟩ <;>
    first | rfl | (simp only [followOccupancy]; (repeat' split) <;> simp [*])

@[simp] theorem createEvacWake_keeps (o : Origin) (s : State) :
    (createEvacWake o s).now = s.now ∧ (createEvacWake o s).pending = s.pending ∧
    (createEvacWake o s).freeCount = s.freeCount ∧ (createEvacWake o s).pins = s.pins ∧
    (createEvacWake o s).station = s.station ∧ (createEvacWake o s).config = s.config ∧
    (createEvacWake o s).supply = s.supply ∧ (createEvacWake o s).roster = s.roster ∧
    (createEvacWake o s).line = s.line ∧ (createEvacWake o s).seq.state = s.seq.state ∧
    (createEvacWake o s).seq.runp = s.seq.runp ∧ (createEvacWake o s).con.spoken = s.con.spoken ∧
    (createEvacWake o s).con.roundOpen = s.con.roundOpen ∧ (createEvacWake o s).con.attempt = s.con.attempt ∧
    (createEvacWake o s).link.queue = s.link.queue ∧ (createEvacWake o s).link.overrun = s.link.overrun ∧
    (createEvacWake o s).link.accept = s.link.accept ∧ (createEvacWake o s).link.reject = s.link.reject ∧
    (createEvacWake o s).link.receiver = s.link.receiver ∧ (createEvacWake o s).seq.duplicate = s.seq.duplicate ∧
    (createEvacWake o s).seq.occupancy = s.seq.occupancy ∧ (createEvacWake o s).seq.serviceSelected = s.seq.serviceSelected ∧
    (createEvacWake o s).seq.sessionOrigin = s.seq.sessionOrigin := by
  refine ⟨?_, ?_, ?_, ?_, ?_, ?_, ?_, ?_, ?_, ?_, ?_, ?_, ?_, ?_, ?_, ?_, ?_, ?_, ?_, ?_, ?_, ?_, ?_⟩ <;> rfl

@[simp] theorem actOnPosition_keeps (s : State) :
    (actOnPosition s).now = s.now ∧ (actOnPosition s).pending = s.pending ∧
    (actOnPosition s).freeCount = s.freeCount ∧ (actOnPosition s).pins = s.pins ∧
    (actOnPosition s).station = s.station ∧ (actOnPosition s).config = s.config ∧
    (actOnPosition s).supply = s.supply ∧ (actOnPosition s).roster = s.roster ∧
    (actOnPosition s).line = s.line ∧ (actOnPosition s).seq.runp = s.seq.runp ∧
    (actOnPosition s).con.spoken = s.con.spoken ∧ (actOnPosition s).con.roundOpen = s.con.roundOpen ∧
    (actOnPosition s).con.attempt = s.con.attempt ∧ (actOnPosition s).link.queue = s.link.queue ∧
    (actOnPosition s).link.overrun = s.link.overrun ∧ (actOnPosition s).link.accept = s.link.accept ∧
    (actOnPosition s).link.reject = s.link.reject ∧ (actOnPosition s).link.receiver = s.link.receiver ∧
    (actOnPosition s).seq.duplicate = s.seq.duplicate ∧ (actOnPosition s).seq.occupancy = s.seq.occupancy ∧
    (actOnPosition s).seq.serviceSelected = s.seq.serviceSelected ∧ (actOnPosition s).seq.sessionOrigin = s.seq.sessionOrigin := by
  refine ⟨?_, ?_, ?_, ?_, ?_, ?_, ?_, ?_, ?_, ?_, ?_, ?_, ?_, ?_, ?_, ?_, ?_, ?_, ?_, ?_, ?_, ?_⟩ <;>
    first | rfl | (simp only [actOnPosition]; (repeat' split) <;> simp [*])

@[simp] theorem enterAssess_keeps (s : State) :
    (enterAssess s).now = s.now ∧ (enterAssess s).pending = s.pending ∧
    (enterAssess s).freeCount = s.freeCount ∧ (enterAssess s).pins = s.pins ∧
    (enterAssess s).station = s.station ∧ (enterAssess s).config = s.config ∧
    (enterAssess s).supply = s.supply ∧ (enterAssess s).roster = s.roster ∧
    (enterAssess s).line = s.line ∧ (enterAssess s).seq.runp = s.seq.runp ∧
    (enterAssess s).con.spoken = s.con.spoken ∧ (enterAssess s).con.roundOpen = s.con.roundOpen ∧
    (enterAssess s).con.attempt = s.con.attempt ∧ (enterAssess s).link.queue = s.link.queue ∧
    (enterAssess s).link.overrun = s.link.overrun ∧ (enterAssess s).link.accept = s.link.accept ∧
    (enterAssess s).link.reject = s.link.reject ∧ (enterAssess s).link.receiver = s.link.receiver ∧
    (enterAssess s).seq.duplicate = s.seq.duplicate ∧ (enterAssess s).seq.occupancy = s.seq.occupancy ∧
    (enterAssess s).seq.serviceSelected = s.seq.serviceSelected ∧ (enterAssess s).seq.sessionOrigin = s.seq.sessionOrigin := by
  refine ⟨?_, ?_, ?_, ?_, ?_, ?_, ?_, ?_, ?_, ?_, ?_, ?_, ?_, ?_, ?_, ?_, ?_, ?_, ?_, ?_, ?_, ?_⟩ <;>
    first | rfl | (simp only [enterAssess]; (repeat' split) <;> simp [*])

@[simp] theorem respond_keeps (a : Answer) (s : State) :
    (respond a s).now = s.now ∧ (respond a s).pending = s.pending ∧
    (respond a s).freeCount = s.freeCount ∧ (respond a s).pins = s.pins ∧
    (respond a s).station = s.station ∧ (respond a s).config = s.config ∧
    (respond a s).seq = s.seq ∧ (respond a s).adm = s.adm ∧
    (respond a s).supply = s.supply ∧ (respond a s).roster = s.roster ∧
    (respond a s).line = s.line ∧ (respond a s).con = s.con ∧
    (respond a s).link.queue = s.link.queue ∧ (respond a s).link.overrun = s.link.overrun ∧
    (respond a s).link.accept = s.link.accept ∧ (respond a s).link.reject = s.link.reject ∧
    (respond a s).link.receiver = s.link.receiver := by
  refine ⟨?_, ?_, ?_, ?_, ?_, ?_, ?_, ?_, ?_, ?_, ?_, ?_, ?_, ?_, ?_, ?_, ?_⟩ <;>
    first | rfl | (simp only [respond]; (repeat' split) <;> simp [*])

@[simp] theorem loseRequest_keeps (s : State) :
    (loseRequest s).now = s.now ∧ (loseRequest s).pending = s.pending ∧
    (loseRequest s).freeCount = s.freeCount ∧ (loseRequest s).pins = s.pins ∧
    (loseRequest s).station = s.station ∧ (loseRequest s).config = s.config ∧
    (loseRequest s).seq = s.seq ∧ (loseRequest s).adm = s.adm ∧
    (loseRequest s).supply = s.supply ∧ (loseRequest s).roster = s.roster ∧
    (loseRequest s).line = s.line ∧ (loseRequest s).con = s.con ∧
    (loseRequest s).link.queue = s.link.queue ∧ (loseRequest s).link.overrun = s.link.overrun ∧
    (loseRequest s).link.accept = s.link.accept ∧ (loseRequest s).link.reject = s.link.reject := by
  refine ⟨?_, ?_, ?_, ?_, ?_, ?_, ?_, ?_, ?_, ?_, ?_, ?_, ?_, ?_, ?_, ?_⟩ <;> rfl

@[simp] theorem answerHeld_keeps (a : Answer) (s : State) :
    (answerHeld a s).now = s.now ∧ (answerHeld a s).pending = s.pending ∧
    (answerHeld a s).freeCount = s.freeCount ∧ (answerHeld a s).pins = s.pins ∧
    (answerHeld a s).station = s.station ∧ (answerHeld a s).config = s.config ∧
    (answerHeld a s).seq = s.seq ∧ (answerHeld a s).adm = s.adm ∧
    (answerHeld a s).supply = s.supply ∧ (answerHeld a s).roster = s.roster ∧
    (answerHeld a s).line = s.line ∧ (answerHeld a s).con = s.con ∧
    (answerHeld a s).link.queue = s.link.queue ∧ (answerHeld a s).link.overrun = s.link.overrun ∧
    (answerHeld a s).link.accept = s.link.accept ∧ (answerHeld a s).link.reject = s.link.reject ∧
    (answerHeld a s).link.receiver = s.link.receiver := by
  refine ⟨?_, ?_, ?_, ?_, ?_, ?_, ?_, ?_, ?_, ?_, ?_, ?_, ?_, ?_, ?_, ?_, ?_⟩ <;>
    first | rfl | (simp only [answerHeld]; (repeat' split) <;> simp [*])

@[simp] theorem enterShedPending_keeps (s : State) :
    (enterShedPending s).now = s.now ∧ (enterShedPending s).pending = s.pending ∧
    (enterShedPending s).freeCount = s.freeCount ∧ (enterShedPending s).pins = s.pins ∧
    (enterShedPending s).station = s.station ∧ (enterShedPending s).config = s.config ∧
    (enterShedPending s).adm = s.adm ∧ (enterShedPending s).supply = s.supply ∧
    (enterShedPending s).roster = s.roster ∧ (enterShedPending s).line = s.line ∧
    (enterShedPending s).seq.runp = s.seq.runp ∧ (enterShedPending s).seq.trip = s.seq.trip ∧
    (enterShedPending s).con.spoken = s.con.spoken ∧ (enterShedPending s).con.roundOpen = s.con.roundOpen ∧
    (enterShedPending s).con.attempt = s.con.attempt ∧ (enterShedPending s).link.queue = s.link.queue ∧
    (enterShedPending s).link.overrun = s.link.overrun ∧ (enterShedPending s).link.accept = s.link.accept ∧
    (enterShedPending s).link.reject = s.link.reject ∧ (enterShedPending s).link.receiver = s.link.receiver ∧
    (enterShedPending s).seq.duplicate = s.seq.duplicate ∧ (enterShedPending s).seq.occupancy = s.seq.occupancy ∧
    (enterShedPending s).seq.serviceSelected = s.seq.serviceSelected ∧ (enterShedPending s).seq.sessionOrigin = s.seq.sessionOrigin ∧
    (enterShedPending s).seq.tripCounter = s.seq.tripCounter := by
  refine ⟨?_, ?_, ?_, ?_, ?_, ?_, ?_, ?_, ?_, ?_, ?_, ?_, ?_, ?_, ?_, ?_, ?_, ?_, ?_, ?_, ?_, ?_, ?_, ?_, ?_⟩ <;>
    first | rfl | simp [enterShedPending]

@[simp] theorem oweShed_keeps (s : State) :
    (oweShed s).now = s.now ∧ (oweShed s).pending = s.pending ∧
    (oweShed s).freeCount = s.freeCount ∧ (oweShed s).pins = s.pins ∧
    (oweShed s).station = s.station ∧ (oweShed s).config = s.config ∧
    (oweShed s).adm = s.adm ∧ (oweShed s).supply = s.supply ∧
    (oweShed s).roster = s.roster ∧ (oweShed s).line = s.line ∧
    (oweShed s).seq.state = s.seq.state ∧ (oweShed s).seq.runp = s.seq.runp ∧
    (oweShed s).con.spoken = s.con.spoken ∧ (oweShed s).con.roundOpen = s.con.roundOpen ∧
    (oweShed s).link.queue = s.link.queue ∧ (oweShed s).link.overrun = s.link.overrun ∧
    (oweShed s).link.accept = s.link.accept ∧ (oweShed s).link.reject = s.link.reject ∧
    (oweShed s).link.receiver = s.link.receiver ∧ (oweShed s).seq.duplicate = s.seq.duplicate ∧
    (oweShed s).seq.occupancy = s.seq.occupancy ∧ (oweShed s).seq.serviceSelected = s.seq.serviceSelected ∧
    (oweShed s).seq.sessionOrigin = s.seq.sessionOrigin ∧ (oweShed s).seq.tripCounter = s.seq.tripCounter := by
  refine ⟨?_, ?_, ?_, ?_, ?_, ?_, ?_, ?_, ?_, ?_, ?_, ?_, ?_, ?_, ?_, ?_, ?_, ?_, ?_, ?_, ?_, ?_, ?_, ?_⟩ <;>
    first | rfl | simp [oweShed]

@[simp] theorem shedCar_keeps (s : State) :
    (shedCar s).now = s.now ∧ (shedCar s).pending = s.pending ∧
    (shedCar s).freeCount = s.freeCount ∧ (shedCar s).pins = s.pins ∧
    (shedCar s).station = s.station ∧ (shedCar s).config = s.config ∧
    (shedCar s).supply = s.supply ∧ (shedCar s).roster = s.roster ∧
    (shedCar s).line = s.line ∧ (shedCar s).seq.runp = s.seq.runp ∧
    (shedCar s).con.spoken = s.con.spoken ∧ (shedCar s).con.roundOpen = s.con.roundOpen ∧
    (shedCar s).link.queue = s.link.queue ∧ (shedCar s).link.overrun = s.link.overrun ∧
    (shedCar s).link.accept = s.link.accept ∧ (shedCar s).link.reject = s.link.reject ∧
    (shedCar s).link.receiver = s.link.receiver ∧ (shedCar s).seq.duplicate = s.seq.duplicate ∧
    (shedCar s).seq.occupancy = s.seq.occupancy ∧ (shedCar s).seq.serviceSelected = s.seq.serviceSelected ∧
    (shedCar s).seq.sessionOrigin = s.seq.sessionOrigin ∧ (shedCar s).seq.tripCounter = s.seq.tripCounter := by
  refine ⟨?_, ?_, ?_, ?_, ?_, ?_, ?_, ?_, ?_, ?_, ?_, ?_, ?_, ?_, ?_, ?_, ?_, ?_, ?_, ?_, ?_, ?_⟩ <;>
    first | rfl | (simp only [shedCar]; (repeat' split) <;> simp [*])

@[simp] theorem shedTest_keeps (s : State) :
    (shedTest s).now = s.now ∧ (shedTest s).pending = s.pending ∧
    (shedTest s).freeCount = s.freeCount ∧ (shedTest s).pins = s.pins ∧
    (shedTest s).station = s.station ∧ (shedTest s).config = s.config ∧
    (shedTest s).supply = s.supply ∧ (shedTest s).roster = s.roster ∧
    (shedTest s).line = s.line ∧ (shedTest s).seq.runp = s.seq.runp ∧
    (shedTest s).con.spoken = s.con.spoken ∧ (shedTest s).con.roundOpen = s.con.roundOpen ∧
    (shedTest s).link.queue = s.link.queue ∧ (shedTest s).link.overrun = s.link.overrun ∧
    (shedTest s).link.accept = s.link.accept ∧ (shedTest s).link.reject = s.link.reject ∧
    (shedTest s).link.receiver = s.link.receiver ∧ (shedTest s).seq.duplicate = s.seq.duplicate ∧
    (shedTest s).seq.occupancy = s.seq.occupancy ∧ (shedTest s).seq.serviceSelected = s.seq.serviceSelected ∧
    (shedTest s).seq.sessionOrigin = s.seq.sessionOrigin ∧ (shedTest s).seq.tripCounter = s.seq.tripCounter := by
  refine ⟨?_, ?_, ?_, ?_, ?_, ?_, ?_, ?_, ?_, ?_, ?_, ?_, ?_, ?_, ?_, ?_, ?_, ?_, ?_, ?_, ?_, ?_⟩ <;>
    first | rfl | (simp only [shedTest]; (repeat' split) <;> simp [*])

@[simp] theorem releaseShedHold_keeps (s : State) :
    (releaseShedHold s).now = s.now ∧ (releaseShedHold s).pending = s.pending ∧
    (releaseShedHold s).freeCount = s.freeCount ∧ (releaseShedHold s).pins = s.pins ∧
    (releaseShedHold s).station = s.station ∧ (releaseShedHold s).config = s.config ∧
    (releaseShedHold s).adm = s.adm ∧ (releaseShedHold s).supply = s.supply ∧
    (releaseShedHold s).roster = s.roster ∧ (releaseShedHold s).line = s.line ∧
    (releaseShedHold s).con = s.con ∧ (releaseShedHold s).link = s.link ∧
    (releaseShedHold s).seq.state = s.seq.state ∧ (releaseShedHold s).seq.runp = s.seq.runp ∧
    (releaseShedHold s).seq.trip = s.seq.trip ∧ (releaseShedHold s).seq.duplicate = s.seq.duplicate ∧
    (releaseShedHold s).seq.occupancy = s.seq.occupancy ∧ (releaseShedHold s).seq.serviceSelected = s.seq.serviceSelected ∧
    (releaseShedHold s).seq.sessionOrigin = s.seq.sessionOrigin ∧ (releaseShedHold s).seq.tripCounter = s.seq.tripCounter := by
  refine ⟨?_, ?_, ?_, ?_, ?_, ?_, ?_, ?_, ?_, ?_, ?_, ?_, ?_, ?_, ?_, ?_, ?_, ?_, ?_, ?_⟩ <;>
    first | rfl | (simp only [releaseShedHold]; (repeat' split) <;> simp [*])

@[simp] theorem rosterChanged_keeps (s : State) :
    (rosterChanged s).now = s.now ∧ (rosterChanged s).pending = s.pending ∧
    (rosterChanged s).freeCount = s.freeCount ∧ (rosterChanged s).pins = s.pins ∧
    (rosterChanged s).station = s.station ∧ (rosterChanged s).config = s.config ∧
    (rosterChanged s).supply = s.supply ∧ (rosterChanged s).roster = s.roster ∧
    (rosterChanged s).line = s.line ∧ (rosterChanged s).seq.runp = s.seq.runp ∧
    (rosterChanged s).con.spoken = s.con.spoken ∧ (rosterChanged s).con.roundOpen = s.con.roundOpen ∧
    (rosterChanged s).link.queue = s.link.queue ∧ (rosterChanged s).link.overrun = s.link.overrun ∧
    (rosterChanged s).link.accept = s.link.accept ∧ (rosterChanged s).link.reject = s.link.reject ∧
    (rosterChanged s).link.receiver = s.link.receiver ∧ (rosterChanged s).seq.duplicate = s.seq.duplicate ∧
    (rosterChanged s).seq.occupancy = s.seq.occupancy ∧ (rosterChanged s).seq.serviceSelected = s.seq.serviceSelected ∧
    (rosterChanged s).seq.sessionOrigin = s.seq.sessionOrigin ∧ (rosterChanged s).seq.tripCounter = s.seq.tripCounter := by
  refine ⟨?_, ?_, ?_, ?_, ?_, ?_, ?_, ?_, ?_, ?_, ?_, ?_, ?_, ?_, ?_, ?_, ?_, ?_, ?_, ?_, ?_, ?_⟩ <;>
    first | rfl | simp [rosterChanged]

@[simp] theorem changeRoster_keeps (r : Roster) (s : State) :
    (changeRoster r s).now = s.now ∧ (changeRoster r s).pending = s.pending ∧
    (changeRoster r s).freeCount = s.freeCount ∧ (changeRoster r s).pins = s.pins ∧
    (changeRoster r s).station = s.station ∧ (changeRoster r s).config = s.config ∧
    (changeRoster r s).supply = s.supply ∧ (changeRoster r s).line = s.line ∧
    (changeRoster r s).seq.runp = s.seq.runp ∧ (changeRoster r s).con.spoken = s.con.spoken ∧
    (changeRoster r s).con.roundOpen = s.con.roundOpen ∧ (changeRoster r s).link.queue = s.link.queue ∧
    (changeRoster r s).link.overrun = s.link.overrun ∧ (changeRoster r s).link.accept = s.link.accept ∧
    (changeRoster r s).link.reject = s.link.reject ∧ (changeRoster r s).link.receiver = s.link.receiver ∧
    (changeRoster r s).seq.duplicate = s.seq.duplicate ∧ (changeRoster r s).seq.occupancy = s.seq.occupancy ∧
    (changeRoster r s).seq.serviceSelected = s.seq.serviceSelected ∧ (changeRoster r s).seq.sessionOrigin = s.seq.sessionOrigin ∧
    (changeRoster r s).seq.tripCounter = s.seq.tripCounter := by
  refine ⟨?_, ?_, ?_, ?_, ?_, ?_, ?_, ?_, ?_, ?_, ?_, ?_, ?_, ?_, ?_, ?_, ?_, ?_, ?_, ?_, ?_⟩ <;>
    first | rfl | (simp only [changeRoster]; (repeat' split) <;> simp [*])

@[simp] theorem raiseAtEvaluation_keeps (s : State) :
    (raiseAtEvaluation s).now = s.now ∧ (raiseAtEvaluation s).pending = s.pending ∧
    (raiseAtEvaluation s).freeCount = s.freeCount ∧ (raiseAtEvaluation s).pins = s.pins ∧
    (raiseAtEvaluation s).station = s.station ∧ (raiseAtEvaluation s).config = s.config ∧
    (raiseAtEvaluation s).seq = s.seq ∧ (raiseAtEvaluation s).supply = s.supply ∧
    (raiseAtEvaluation s).roster = s.roster ∧ (raiseAtEvaluation s).line = s.line ∧
    (raiseAtEvaluation s).con = s.con ∧ (raiseAtEvaluation s).link.queue = s.link.queue ∧
    (raiseAtEvaluation s).link.overrun = s.link.overrun ∧ (raiseAtEvaluation s).link.accept = s.link.accept ∧
    (raiseAtEvaluation s).link.reject = s.link.reject ∧ (raiseAtEvaluation s).link.receiver = s.link.receiver := by
  refine ⟨?_, ?_, ?_, ?_, ?_, ?_, ?_, ?_, ?_, ?_, ?_, ?_, ?_, ?_, ?_, ?_⟩ <;>
    first | rfl | simp [raiseAtEvaluation]

@[simp] theorem endExceeded_keeps (t : Trip) (s : State) :
    (endExceeded t s).now = s.now ∧ (endExceeded t s).pending = s.pending ∧
    (endExceeded t s).freeCount = s.freeCount ∧ (endExceeded t s).pins = s.pins ∧
    (endExceeded t s).station = s.station ∧ (endExceeded t s).config = s.config ∧
    (endExceeded t s).supply = s.supply ∧ (endExceeded t s).roster = s.roster ∧
    (endExceeded t s).line = s.line ∧ (endExceeded t s).seq.runp = s.seq.runp ∧
    (endExceeded t s).con.spoken = s.con.spoken ∧ (endExceeded t s).con.roundOpen = s.con.roundOpen ∧
    (endExceeded t s).con.attempt = s.con.attempt ∧ (endExceeded t s).link.queue = s.link.queue ∧
    (endExceeded t s).link.overrun = s.link.overrun ∧ (endExceeded t s).link.accept = s.link.accept ∧
    (endExceeded t s).link.reject = s.link.reject ∧ (endExceeded t s).link.receiver = s.link.receiver ∧
    (endExceeded t s).seq.duplicate = s.seq.duplicate ∧ (endExceeded t s).seq.occupancy = s.seq.occupancy ∧
    (endExceeded t s).seq.serviceSelected = s.seq.serviceSelected ∧ (endExceeded t s).seq.sessionOrigin = s.seq.sessionOrigin ∧
    (endExceeded t s).seq.tripCounter = s.seq.tripCounter := by
  refine ⟨?_, ?_, ?_, ?_, ?_, ?_, ?_, ?_, ?_, ?_, ?_, ?_, ?_, ?_, ?_, ?_, ?_, ?_, ?_, ?_, ?_, ?_, ?_⟩ <;>
    first | rfl | simp [endExceeded]

@[simp] theorem evaluateTrip_keeps (t : Trip) (s : State) :
    (evaluateTrip t s).now = s.now ∧ (evaluateTrip t s).pending = s.pending ∧
    (evaluateTrip t s).freeCount = s.freeCount ∧ (evaluateTrip t s).pins = s.pins ∧
    (evaluateTrip t s).station = s.station ∧ (evaluateTrip t s).config = s.config ∧
    (evaluateTrip t s).supply = s.supply ∧ (evaluateTrip t s).roster = s.roster ∧
    (evaluateTrip t s).line = s.line ∧ (evaluateTrip t s).seq.runp = s.seq.runp ∧
    (evaluateTrip t s).con.spoken = s.con.spoken ∧ (evaluateTrip t s).con.roundOpen = s.con.roundOpen ∧
    (evaluateTrip t s).con.attempt = s.con.attempt ∧ (evaluateTrip t s).link.queue = s.link.queue ∧
    (evaluateTrip t s).link.overrun = s.link.overrun ∧ (evaluateTrip t s).link.accept = s.link.accept ∧
    (evaluateTrip t s).link.reject = s.link.reject ∧ (evaluateTrip t s).link.receiver = s.link.receiver ∧
    (evaluateTrip t s).seq.duplicate = s.seq.duplicate ∧ (evaluateTrip t s).seq.occupancy = s.seq.occupancy ∧
    (evaluateTrip t s).seq.serviceSelected = s.seq.serviceSelected ∧ (evaluateTrip t s).seq.sessionOrigin = s.seq.sessionOrigin ∧
    (evaluateTrip t s).seq.tripCounter = s.seq.tripCounter := by
  refine ⟨?_, ?_, ?_, ?_, ?_, ?_, ?_, ?_, ?_, ?_, ?_, ?_, ?_, ?_, ?_, ?_, ?_, ?_, ?_, ?_, ?_, ?_, ?_⟩ <;>
    first | rfl | (simp only [evaluateTrip]; (repeat' split) <;> simp [*])

@[simp] theorem evaluate_keeps (s : State) :
    (evaluate s).now = s.now ∧ (evaluate s).pending = s.pending ∧
    (evaluate s).freeCount = s.freeCount ∧ (evaluate s).pins = s.pins ∧
    (evaluate s).station = s.station ∧ (evaluate s).config = s.config ∧
    (evaluate s).supply = s.supply ∧ (evaluate s).roster = s.roster ∧
    (evaluate s).line = s.line ∧ (evaluate s).seq.runp = s.seq.runp ∧
    (evaluate s).con.spoken = s.con.spoken ∧ (evaluate s).con.roundOpen = s.con.roundOpen ∧
    (evaluate s).con.attempt = s.con.attempt ∧ (evaluate s).link.queue = s.link.queue ∧
    (evaluate s).link.overrun = s.link.overrun ∧ (evaluate s).link.accept = s.link.accept ∧
    (evaluate s).link.reject = s.link.reject ∧ (evaluate s).link.receiver = s.link.receiver ∧
    (evaluate s).seq.duplicate = s.seq.duplicate ∧ (evaluate s).seq.occupancy = s.seq.occupancy ∧
    (evaluate s).seq.serviceSelected = s.seq.serviceSelected ∧ (evaluate s).seq.sessionOrigin = s.seq.sessionOrigin ∧
    (evaluate s).seq.tripCounter = s.seq.tripCounter := by
  refine ⟨?_, ?_, ?_, ?_, ?_, ?_, ?_, ?_, ?_, ?_, ?_, ?_, ?_, ?_, ?_, ?_, ?_, ?_, ?_, ?_, ?_, ?_, ?_⟩ <;>
    first | rfl | (simp only [evaluate]; (repeat' split) <;> simp [*])

@[simp] theorem beginAttempt_keeps (i : Nat) (b : Body) (s : State) :
    (beginAttempt i b s).now = s.now ∧ (beginAttempt i b s).pending = s.pending ∧
    (beginAttempt i b s).freeCount = s.freeCount ∧ (beginAttempt i b s).pins = s.pins ∧
    (beginAttempt i b s).station = s.station ∧ (beginAttempt i b s).config = s.config ∧
    (beginAttempt i b s).seq = s.seq ∧ (beginAttempt i b s).adm = s.adm ∧
    (beginAttempt i b s).supply = s.supply ∧ (beginAttempt i b s).roster = s.roster ∧
    (beginAttempt i b s).line = s.line ∧ (beginAttempt i b s).link = s.link ∧
    (beginAttempt i b s).con.spoken = s.con.spoken ∧ (beginAttempt i b s).con.roundOpen = s.con.roundOpen := by
  refine ⟨?_, ?_, ?_, ?_, ?_, ?_, ?_, ?_, ?_, ?_, ?_, ?_, ?_, ?_⟩ <;> rfl

@[simp] theorem chooseClaim_keeps (i : Nat) (t : Trip) (o : Option SpeedStep × StepFigures) (s : State) :
    (chooseClaim i t o s).now = s.now ∧ (chooseClaim i t o s).pending = s.pending ∧
    (chooseClaim i t o s).freeCount = s.freeCount ∧ (chooseClaim i t o s).pins = s.pins ∧
    (chooseClaim i t o s).station = s.station ∧ (chooseClaim i t o s).config = s.config ∧
    (chooseClaim i t o s).adm = s.adm ∧ (chooseClaim i t o s).supply = s.supply ∧
    (chooseClaim i t o s).roster = s.roster ∧ (chooseClaim i t o s).line = s.line ∧
    (chooseClaim i t o s).seq.state = s.seq.state ∧ (chooseClaim i t o s).seq.runp = s.seq.runp ∧
    (chooseClaim i t o s).con.spoken = s.con.spoken ∧ (chooseClaim i t o s).con.roundOpen = s.con.roundOpen ∧
    (chooseClaim i t o s).link.queue = s.link.queue ∧ (chooseClaim i t o s).link.overrun = s.link.overrun ∧
    (chooseClaim i t o s).link.accept = s.link.accept ∧ (chooseClaim i t o s).link.reject = s.link.reject ∧
    (chooseClaim i t o s).link.receiver = s.link.receiver ∧ (chooseClaim i t o s).seq.duplicate = s.seq.duplicate ∧
    (chooseClaim i t o s).seq.occupancy = s.seq.occupancy ∧ (chooseClaim i t o s).seq.serviceSelected = s.seq.serviceSelected ∧
    (chooseClaim i t o s).seq.sessionOrigin = s.seq.sessionOrigin ∧ (chooseClaim i t o s).seq.tripCounter = s.seq.tripCounter := by
  refine ⟨?_, ?_, ?_, ?_, ?_, ?_, ?_, ?_, ?_, ?_, ?_, ?_, ?_, ?_, ?_, ?_, ?_, ?_, ?_, ?_, ?_, ?_, ?_, ?_⟩ <;> rfl

@[simp] theorem choosePresence_keeps (i : Nat) (s : State) :
    (choosePresence i s).now = s.now ∧ (choosePresence i s).pending = s.pending ∧
    (choosePresence i s).freeCount = s.freeCount ∧ (choosePresence i s).pins = s.pins ∧
    (choosePresence i s).station = s.station ∧ (choosePresence i s).config = s.config ∧
    (choosePresence i s).seq = s.seq ∧ (choosePresence i s).adm = s.adm ∧
    (choosePresence i s).supply = s.supply ∧ (choosePresence i s).roster = s.roster ∧
    (choosePresence i s).line = s.line ∧ (choosePresence i s).link = s.link ∧
    (choosePresence i s).con.spoken = s.con.spoken ∧ (choosePresence i s).con.roundOpen = s.con.roundOpen := by
  refine ⟨?_, ?_, ?_, ?_, ?_, ?_, ?_, ?_, ?_, ?_, ?_, ?_, ?_, ?_⟩ <;>
    first | rfl | (simp only [choosePresence]; (repeat' split) <;> simp [*])

@[simp] theorem chooseSlot_keeps (i : Nat) (o : Option (Option SpeedStep × StepFigures)) (s : State) :
    (chooseSlot i o s).now = s.now ∧ (chooseSlot i o s).pending = s.pending ∧
    (chooseSlot i o s).freeCount = s.freeCount ∧ (chooseSlot i o s).pins = s.pins ∧
    (chooseSlot i o s).station = s.station ∧ (chooseSlot i o s).config = s.config ∧
    (chooseSlot i o s).adm = s.adm ∧ (chooseSlot i o s).supply = s.supply ∧
    (chooseSlot i o s).roster = s.roster ∧ (chooseSlot i o s).line = s.line ∧
    (chooseSlot i o s).seq.state = s.seq.state ∧ (chooseSlot i o s).seq.runp = s.seq.runp ∧
    (chooseSlot i o s).con.spoken = s.con.spoken ∧ (chooseSlot i o s).con.roundOpen = s.con.roundOpen ∧
    (chooseSlot i o s).link.queue = s.link.queue ∧ (chooseSlot i o s).link.overrun = s.link.overrun ∧
    (chooseSlot i o s).link.accept = s.link.accept ∧ (chooseSlot i o s).link.reject = s.link.reject ∧
    (chooseSlot i o s).link.receiver = s.link.receiver ∧ (chooseSlot i o s).seq.duplicate = s.seq.duplicate ∧
    (chooseSlot i o s).seq.occupancy = s.seq.occupancy ∧ (chooseSlot i o s).seq.serviceSelected = s.seq.serviceSelected ∧
    (chooseSlot i o s).seq.sessionOrigin = s.seq.sessionOrigin ∧ (chooseSlot i o s).seq.tripCounter = s.seq.tripCounter := by
  refine ⟨?_, ?_, ?_, ?_, ?_, ?_, ?_, ?_, ?_, ?_, ?_, ?_, ?_, ?_, ?_, ?_, ?_, ?_, ?_, ?_, ?_, ?_, ?_, ?_⟩ <;>
    first | rfl | (simp only [chooseSlot]; (repeat' split) <;> simp [*])

@[simp] theorem referencePoint_keeps (i : Nat) (s : State) :
    (referencePoint i s).now = s.now ∧ (referencePoint i s).pending = s.pending ∧
    (referencePoint i s).freeCount = s.freeCount ∧ (referencePoint i s).pins = s.pins ∧
    (referencePoint i s).station = s.station ∧ (referencePoint i s).config = s.config ∧
    (referencePoint i s).supply = s.supply ∧ (referencePoint i s).roster = s.roster ∧
    (referencePoint i s).line = s.line ∧ (referencePoint i s).seq.runp = s.seq.runp ∧
    (referencePoint i s).con.spoken = s.con.spoken ∧ (referencePoint i s).con.roundOpen = s.con.roundOpen ∧
    (referencePoint i s).link.queue = s.link.queue ∧ (referencePoint i s).link.overrun = s.link.overrun ∧
    (referencePoint i s).link.accept = s.link.accept ∧ (referencePoint i s).link.reject = s.link.reject ∧
    (referencePoint i s).link.receiver = s.link.receiver ∧ (referencePoint i s).seq.duplicate = s.seq.duplicate ∧
    (referencePoint i s).seq.occupancy = s.seq.occupancy ∧ (referencePoint i s).seq.serviceSelected = s.seq.serviceSelected ∧
    (referencePoint i s).seq.sessionOrigin = s.seq.sessionOrigin ∧ (referencePoint i s).seq.tripCounter = s.seq.tripCounter := by
  refine ⟨?_, ?_, ?_, ?_, ?_, ?_, ?_, ?_, ?_, ?_, ?_, ?_, ?_, ?_, ?_, ?_, ?_, ?_, ?_, ?_, ?_, ?_⟩ <;>
    first | rfl | simp [referencePoint]

@[simp] theorem offerObservation_keeps (o : Observation) (s : State) :
    (offerObservation o s).now = s.now ∧ (offerObservation o s).pending = s.pending ∧
    (offerObservation o s).freeCount = s.freeCount ∧ (offerObservation o s).pins = s.pins ∧
    (offerObservation o s).station = s.station ∧ (offerObservation o s).config = s.config ∧
    (offerObservation o s).seq = s.seq ∧ (offerObservation o s).adm = s.adm ∧
    (offerObservation o s).supply = s.supply ∧ (offerObservation o s).roster = s.roster ∧
    (offerObservation o s).line = s.line ∧ (offerObservation o s).con = s.con ∧
    (offerObservation o s).link.accept = s.link.accept ∧ (offerObservation o s).link.reject = s.link.reject ∧
    (offerObservation o s).link.receiver = s.link.receiver := by
  refine ⟨?_, ?_, ?_, ?_, ?_, ?_, ?_, ?_, ?_, ?_, ?_, ?_, ?_, ?_, ?_⟩ <;>
    first | rfl | (simp only [offerObservation]; (repeat' split) <;> simp [*])

@[simp] theorem restartSettle_keeps (s : State) :
    (restartSettle s).now = s.now ∧ (restartSettle s).pending = s.pending ∧
    (restartSettle s).freeCount = s.freeCount ∧ (restartSettle s).pins = s.pins ∧
    (restartSettle s).station = s.station ∧ (restartSettle s).config = s.config ∧
    (restartSettle s).seq = s.seq ∧ (restartSettle s).adm = s.adm ∧
    (restartSettle s).roster = s.roster ∧ (restartSettle s).line = s.line ∧
    (restartSettle s).con = s.con ∧ (restartSettle s).link = s.link ∧
    (restartSettle s).supply.trn = s.supply.trn ∧ (restartSettle s).supply.freqClass = s.supply.freqClass := by
  refine ⟨?_, ?_, ?_, ?_, ?_, ?_, ?_, ?_, ?_, ?_, ?_, ?_, ?_, ?_⟩ <;>
    first | rfl | (simp only [restartSettle]; (repeat' split) <;> simp [*])

@[simp] theorem supplyNotice_keeps (s : State) :
    (supplyNotice s).now = s.now ∧ (supplyNotice s).pending = s.pending ∧
    (supplyNotice s).freeCount = s.freeCount ∧ (supplyNotice s).pins = s.pins ∧
    (supplyNotice s).station = s.station ∧ (supplyNotice s).config = s.config ∧
    (supplyNotice s).adm = s.adm ∧ (supplyNotice s).supply = s.supply ∧
    (supplyNotice s).roster = s.roster ∧ (supplyNotice s).line = s.line ∧
    (supplyNotice s).seq.state = s.seq.state ∧ (supplyNotice s).seq.runp = s.seq.runp ∧
    (supplyNotice s).con.spoken = s.con.spoken ∧ (supplyNotice s).con.roundOpen = s.con.roundOpen ∧
    (supplyNotice s).link.queue = s.link.queue ∧ (supplyNotice s).link.overrun = s.link.overrun ∧
    (supplyNotice s).link.accept = s.link.accept ∧ (supplyNotice s).link.reject = s.link.reject ∧
    (supplyNotice s).link.receiver = s.link.receiver ∧ (supplyNotice s).seq.duplicate = s.seq.duplicate ∧
    (supplyNotice s).seq.occupancy = s.seq.occupancy ∧ (supplyNotice s).seq.serviceSelected = s.seq.serviceSelected ∧
    (supplyNotice s).seq.sessionOrigin = s.seq.sessionOrigin ∧ (supplyNotice s).seq.tripCounter = s.seq.tripCounter := by
  refine ⟨?_, ?_, ?_, ?_, ?_, ?_, ?_, ?_, ?_, ?_, ?_, ?_, ?_, ?_, ?_, ?_, ?_, ?_, ?_, ?_, ?_, ?_, ?_, ?_⟩ <;>
    first | rfl | simp [supplyNotice]

@[simp] theorem noticeAfter_keeps (b : SupplyMonitor) (s : State) :
    (noticeAfter b s).now = s.now ∧ (noticeAfter b s).pending = s.pending ∧
    (noticeAfter b s).freeCount = s.freeCount ∧ (noticeAfter b s).pins = s.pins ∧
    (noticeAfter b s).station = s.station ∧ (noticeAfter b s).config = s.config ∧
    (noticeAfter b s).adm = s.adm ∧ (noticeAfter b s).supply = s.supply ∧
    (noticeAfter b s).roster = s.roster ∧ (noticeAfter b s).line = s.line ∧
    (noticeAfter b s).seq.state = s.seq.state ∧ (noticeAfter b s).seq.runp = s.seq.runp ∧
    (noticeAfter b s).con.spoken = s.con.spoken ∧ (noticeAfter b s).con.roundOpen = s.con.roundOpen ∧
    (noticeAfter b s).link.queue = s.link.queue ∧ (noticeAfter b s).link.overrun = s.link.overrun ∧
    (noticeAfter b s).link.accept = s.link.accept ∧ (noticeAfter b s).link.reject = s.link.reject ∧
    (noticeAfter b s).link.receiver = s.link.receiver ∧ (noticeAfter b s).seq.duplicate = s.seq.duplicate ∧
    (noticeAfter b s).seq.occupancy = s.seq.occupancy ∧ (noticeAfter b s).seq.serviceSelected = s.seq.serviceSelected ∧
    (noticeAfter b s).seq.sessionOrigin = s.seq.sessionOrigin ∧ (noticeAfter b s).seq.tripCounter = s.seq.tripCounter := by
  refine ⟨?_, ?_, ?_, ?_, ?_, ?_, ?_, ?_, ?_, ?_, ?_, ?_, ?_, ?_, ?_, ?_, ?_, ?_, ?_, ?_, ?_, ?_, ?_, ?_⟩ <;>
    first | rfl | (simp only [noticeAfter]; (repeat' split) <;> simp [*])

@[simp] theorem noteStart_keeps (b : Body) (s : State) :
    (noteStart b s).now = s.now ∧ (noteStart b s).pending = s.pending ∧
    (noteStart b s).freeCount = s.freeCount ∧ (noteStart b s).pins = s.pins ∧
    (noteStart b s).station = s.station ∧ (noteStart b s).config = s.config ∧
    (noteStart b s).adm = s.adm ∧ (noteStart b s).roster = s.roster ∧
    (noteStart b s).line = s.line ∧ (noteStart b s).seq.state = s.seq.state ∧
    (noteStart b s).seq.runp = s.seq.runp ∧ (noteStart b s).con.spoken = s.con.spoken ∧
    (noteStart b s).con.roundOpen = s.con.roundOpen ∧ (noteStart b s).link.queue = s.link.queue ∧
    (noteStart b s).link.overrun = s.link.overrun ∧ (noteStart b s).link.accept = s.link.accept ∧
    (noteStart b s).link.reject = s.link.reject ∧ (noteStart b s).link.receiver = s.link.receiver ∧
    (noteStart b s).supply.trn = s.supply.trn ∧ (noteStart b s).supply.freqClass = s.supply.freqClass ∧
    (noteStart b s).seq.duplicate = s.seq.duplicate ∧ (noteStart b s).seq.occupancy = s.seq.occupancy ∧
    (noteStart b s).seq.serviceSelected = s.seq.serviceSelected ∧ (noteStart b s).seq.sessionOrigin = s.seq.sessionOrigin ∧
    (noteStart b s).seq.tripCounter = s.seq.tripCounter := by
  refine ⟨?_, ?_, ?_, ?_, ?_, ?_, ?_, ?_, ?_, ?_, ?_, ?_, ?_, ?_, ?_, ?_, ?_, ?_, ?_, ?_, ?_, ?_, ?_, ?_, ?_⟩ <;>
    first | rfl | (simp only [noteStart]; (repeat' split) <;> simp [*])

@[simp] theorem noteClaim_keeps (s : State) :
    (noteClaim s).now = s.now ∧ (noteClaim s).pending = s.pending ∧ (noteClaim s).freeCount = s.freeCount ∧
    (noteClaim s).pins = s.pins ∧ (noteClaim s).station = s.station ∧ (noteClaim s).config = s.config ∧
    (noteClaim s).adm = s.adm ∧ (noteClaim s).supply = s.supply ∧ (noteClaim s).roster = s.roster ∧
    (noteClaim s).line = s.line ∧ (noteClaim s).con = s.con ∧ (noteClaim s).link = s.link ∧
    (noteClaim s).seq.state = s.seq.state ∧ (noteClaim s).seq.runp = s.seq.runp ∧ (noteClaim s).seq.trip = s.seq.trip ∧
    (noteClaim s).seq.shedOwed = s.seq.shedOwed ∧ (noteClaim s).seq.duplicate = s.seq.duplicate ∧
    (noteClaim s).seq.occupancy = s.seq.occupancy ∧ (noteClaim s).seq.serviceSelected = s.seq.serviceSelected ∧
    (noteClaim s).seq.sessionOrigin = s.seq.sessionOrigin ∧ (noteClaim s).seq.tripCounter = s.seq.tripCounter := by
  refine ⟨?_, ?_, ?_, ?_, ?_, ?_, ?_, ?_, ?_, ?_, ?_, ?_, ?_, ?_, ?_, ?_, ?_, ?_, ?_, ?_, ?_⟩ <;> rfl

@[simp] theorem standingFromClaim_keeps (c : Claim) (s : State) :
    (standingFromClaim c s).now = s.now ∧ (standingFromClaim c s).pending = s.pending ∧
    (standingFromClaim c s).freeCount = s.freeCount ∧ (standingFromClaim c s).pins = s.pins ∧
    (standingFromClaim c s).station = s.station ∧ (standingFromClaim c s).config = s.config ∧
    (standingFromClaim c s).adm = s.adm ∧ (standingFromClaim c s).supply = s.supply ∧
    (standingFromClaim c s).roster = s.roster ∧ (standingFromClaim c s).line = s.line ∧
    (standingFromClaim c s).con = s.con ∧ (standingFromClaim c s).link = s.link ∧
    (standingFromClaim c s).seq.state = s.seq.state ∧ (standingFromClaim c s).seq.runp = s.seq.runp ∧
    (standingFromClaim c s).seq.trip = s.seq.trip ∧ (standingFromClaim c s).seq.duplicate = s.seq.duplicate ∧
    (standingFromClaim c s).seq.occupancy = s.seq.occupancy ∧ (standingFromClaim c s).seq.serviceSelected = s.seq.serviceSelected ∧
    (standingFromClaim c s).seq.sessionOrigin = s.seq.sessionOrigin ∧ (standingFromClaim c s).seq.tripCounter = s.seq.tripCounter := by
  refine ⟨?_, ?_, ?_, ?_, ?_, ?_, ?_, ?_, ?_, ?_, ?_, ?_, ?_, ?_, ?_, ?_, ?_, ?_, ?_, ?_⟩ <;> rfl

@[simp] theorem standingFromRelease_keeps (r : Release) (s : State) :
    (standingFromRelease r s).now = s.now ∧ (standingFromRelease r s).pending = s.pending ∧
    (standingFromRelease r s).freeCount = s.freeCount ∧ (standingFromRelease r s).pins = s.pins ∧
    (standingFromRelease r s).station = s.station ∧ (standingFromRelease r s).config = s.config ∧
    (standingFromRelease r s).adm = s.adm ∧ (standingFromRelease r s).supply = s.supply ∧
    (standingFromRelease r s).roster = s.roster ∧ (standingFromRelease r s).line = s.line ∧
    (standingFromRelease r s).con = s.con ∧ (standingFromRelease r s).link = s.link ∧
    (standingFromRelease r s).seq.state = s.seq.state ∧ (standingFromRelease r s).seq.runp = s.seq.runp ∧
    (standingFromRelease r s).seq.trip = s.seq.trip ∧ (standingFromRelease r s).seq.duplicate = s.seq.duplicate ∧
    (standingFromRelease r s).seq.occupancy = s.seq.occupancy ∧ (standingFromRelease r s).seq.serviceSelected = s.seq.serviceSelected ∧
    (standingFromRelease r s).seq.sessionOrigin = s.seq.sessionOrigin ∧ (standingFromRelease r s).seq.tripCounter = s.seq.tripCounter := by
  refine ⟨?_, ?_, ?_, ?_, ?_, ?_, ?_, ?_, ?_, ?_, ?_, ?_, ?_, ?_, ?_, ?_, ?_, ?_, ?_, ?_⟩ <;>
    first | rfl | (simp only [standingFromRelease]; (repeat' split) <;> simp [*])

@[simp] theorem startRun_keeps (t : Trip) (s : State) :
    (startRun t s).now = s.now ∧ (startRun t s).pending = s.pending ∧
    (startRun t s).freeCount = s.freeCount ∧ (startRun t s).pins = s.pins ∧
    (startRun t s).station = s.station ∧ (startRun t s).config = s.config ∧
    (startRun t s).adm = s.adm ∧ (startRun t s).supply = s.supply ∧
    (startRun t s).roster = s.roster ∧ (startRun t s).line = s.line ∧
    (startRun t s).con = s.con ∧ (startRun t s).link.queue = s.link.queue ∧
    (startRun t s).link.overrun = s.link.overrun ∧ (startRun t s).link.accept = s.link.accept ∧
    (startRun t s).link.reject = s.link.reject ∧ (startRun t s).link.receiver = s.link.receiver ∧
    (startRun t s).seq.duplicate = s.seq.duplicate ∧ (startRun t s).seq.occupancy = s.seq.occupancy ∧
    (startRun t s).seq.serviceSelected = s.seq.serviceSelected ∧ (startRun t s).seq.sessionOrigin = s.seq.sessionOrigin ∧
    (startRun t s).seq.tripCounter = s.seq.tripCounter := by
  refine ⟨?_, ?_, ?_, ?_, ?_, ?_, ?_, ?_, ?_, ?_, ?_, ?_, ?_, ?_, ?_, ?_, ?_, ?_, ?_, ?_, ?_⟩ <;>
    first | rfl | (simp only [startRun]; (repeat' split) <;> simp [*])

@[simp] theorem finishWake_keeps (t : Trip) (s : State) :
    (finishWake t s).now = s.now ∧ (finishWake t s).pending = s.pending ∧
    (finishWake t s).freeCount = s.freeCount ∧ (finishWake t s).pins = s.pins ∧
    (finishWake t s).station = s.station ∧ (finishWake t s).config = s.config ∧
    (finishWake t s).supply = s.supply ∧ (finishWake t s).roster = s.roster ∧
    (finishWake t s).line = s.line ∧ (finishWake t s).seq.runp = s.seq.runp ∧
    (finishWake t s).con.spoken = s.con.spoken ∧ (finishWake t s).con.roundOpen = s.con.roundOpen ∧
    (finishWake t s).con.attempt = s.con.attempt ∧ (finishWake t s).link.queue = s.link.queue ∧
    (finishWake t s).link.overrun = s.link.overrun ∧ (finishWake t s).link.accept = s.link.accept ∧
    (finishWake t s).link.reject = s.link.reject ∧ (finishWake t s).link.receiver = s.link.receiver ∧
    (finishWake t s).seq.duplicate = s.seq.duplicate ∧ (finishWake t s).seq.occupancy = s.seq.occupancy ∧
    (finishWake t s).seq.serviceSelected = s.seq.serviceSelected ∧ (finishWake t s).seq.sessionOrigin = s.seq.sessionOrigin ∧
    (finishWake t s).seq.tripCounter = s.seq.tripCounter := by
  refine ⟨?_, ?_, ?_, ?_, ?_, ?_, ?_, ?_, ?_, ?_, ?_, ?_, ?_, ?_, ?_, ?_, ?_, ?_, ?_, ?_, ?_, ?_, ?_⟩ <;>
    first | rfl | (simp only [finishWake]; (repeat' split) <;> simp [*])

@[simp] theorem endCancelled_keeps (c : Bool) (t : Trip) (s : State) :
    (endCancelled c t s).now = s.now ∧ (endCancelled c t s).pending = s.pending ∧
    (endCancelled c t s).freeCount = s.freeCount ∧ (endCancelled c t s).pins = s.pins ∧
    (endCancelled c t s).station = s.station ∧ (endCancelled c t s).config = s.config ∧
    (endCancelled c t s).supply = s.supply ∧ (endCancelled c t s).roster = s.roster ∧
    (endCancelled c t s).line = s.line ∧ (endCancelled c t s).seq.runp = s.seq.runp ∧
    (endCancelled c t s).con.spoken = s.con.spoken ∧ (endCancelled c t s).con.roundOpen = s.con.roundOpen ∧
    (endCancelled c t s).link.queue = s.link.queue ∧ (endCancelled c t s).link.overrun = s.link.overrun ∧
    (endCancelled c t s).link.accept = s.link.accept ∧ (endCancelled c t s).link.reject = s.link.reject ∧
    (endCancelled c t s).link.receiver = s.link.receiver ∧ (endCancelled c t s).seq.duplicate = s.seq.duplicate ∧
    (endCancelled c t s).seq.occupancy = s.seq.occupancy ∧ (endCancelled c t s).seq.serviceSelected = s.seq.serviceSelected ∧
    (endCancelled c t s).seq.sessionOrigin = s.seq.sessionOrigin ∧ (endCancelled c t s).seq.tripCounter = s.seq.tripCounter := by
  refine ⟨?_, ?_, ?_, ?_, ?_, ?_, ?_, ?_, ?_, ?_, ?_, ?_, ?_, ?_, ?_, ?_, ?_, ?_, ?_, ?_, ?_, ?_⟩ <;>
    first | rfl | (simp only [endCancelled]; (repeat' split) <;> simp [*])

@[simp] theorem tripAfterClaim_keeps (w : Bool) (s : State) :
    (tripAfterClaim w s).now = s.now ∧ (tripAfterClaim w s).pending = s.pending ∧
    (tripAfterClaim w s).freeCount = s.freeCount ∧ (tripAfterClaim w s).pins = s.pins ∧
    (tripAfterClaim w s).station = s.station ∧ (tripAfterClaim w s).config = s.config ∧
    (tripAfterClaim w s).supply = s.supply ∧ (tripAfterClaim w s).roster = s.roster ∧
    (tripAfterClaim w s).line = s.line ∧ (tripAfterClaim w s).con.spoken = s.con.spoken ∧
    (tripAfterClaim w s).con.roundOpen = s.con.roundOpen ∧ (tripAfterClaim w s).link.queue = s.link.queue ∧
    (tripAfterClaim w s).link.overrun = s.link.overrun ∧ (tripAfterClaim w s).link.accept = s.link.accept ∧
    (tripAfterClaim w s).link.reject = s.link.reject ∧ (tripAfterClaim w s).link.receiver = s.link.receiver ∧
    (tripAfterClaim w s).seq.duplicate = s.seq.duplicate ∧ (tripAfterClaim w s).seq.occupancy = s.seq.occupancy ∧
    (tripAfterClaim w s).seq.serviceSelected = s.seq.serviceSelected ∧ (tripAfterClaim w s).seq.sessionOrigin = s.seq.sessionOrigin ∧
    (tripAfterClaim w s).seq.tripCounter = s.seq.tripCounter := by
  refine ⟨?_, ?_, ?_, ?_, ?_, ?_, ?_, ?_, ?_, ?_, ?_, ?_, ?_, ?_, ?_, ?_, ?_, ?_, ?_, ?_, ?_⟩ <;>
    first | rfl | (simp only [tripAfterClaim]; (repeat' split) <;> simp [*])

@[simp] theorem completeRelease_keeps (r : Release) (s : State) :
    (completeRelease r s).now = s.now ∧ (completeRelease r s).pending = s.pending ∧
    (completeRelease r s).freeCount = s.freeCount ∧ (completeRelease r s).pins = s.pins ∧
    (completeRelease r s).station = s.station ∧ (completeRelease r s).config = s.config ∧
    (completeRelease r s).adm = s.adm ∧ (completeRelease r s).supply = s.supply ∧
    (completeRelease r s).roster = s.roster ∧ (completeRelease r s).line = s.line ∧
    (completeRelease r s).seq.state = s.seq.state ∧ (completeRelease r s).seq.runp = s.seq.runp ∧
    (completeRelease r s).con.roundOpen = s.con.roundOpen ∧ (completeRelease r s).link.queue = s.link.queue ∧
    (completeRelease r s).link.overrun = s.link.overrun ∧ (completeRelease r s).link.accept = s.link.accept ∧
    (completeRelease r s).link.reject = s.link.reject ∧ (completeRelease r s).link.receiver = s.link.receiver ∧
    (completeRelease r s).seq.duplicate = s.seq.duplicate ∧ (completeRelease r s).seq.occupancy = s.seq.occupancy ∧
    (completeRelease r s).seq.serviceSelected = s.seq.serviceSelected ∧ (completeRelease r s).seq.sessionOrigin = s.seq.sessionOrigin ∧
    (completeRelease r s).seq.tripCounter = s.seq.tripCounter := by
  refine ⟨?_, ?_, ?_, ?_, ?_, ?_, ?_, ?_, ?_, ?_, ?_, ?_, ?_, ?_, ?_, ?_, ?_, ?_, ?_, ?_, ?_, ?_, ?_⟩ <;>
    first | rfl | (simp only [completeRelease]; (repeat' split) <;> simp [*])

@[simp] theorem completeClaim_keeps (c : Claim) (s : State) :
    (completeClaim c s).now = s.now ∧ (completeClaim c s).pending = s.pending ∧
    (completeClaim c s).freeCount = s.freeCount ∧ (completeClaim c s).pins = s.pins ∧
    (completeClaim c s).station = s.station ∧ (completeClaim c s).config = s.config ∧
    (completeClaim c s).supply = s.supply ∧ (completeClaim c s).line = s.line ∧
    (completeClaim c s).con.roundOpen = s.con.roundOpen ∧ (completeClaim c s).link.queue = s.link.queue ∧
    (completeClaim c s).link.overrun = s.link.overrun ∧ (completeClaim c s).link.accept = s.link.accept ∧
    (completeClaim c s).link.reject = s.link.reject ∧ (completeClaim c s).link.receiver = s.link.receiver ∧
    (completeClaim c s).seq.duplicate = s.seq.duplicate ∧ (completeClaim c s).seq.occupancy = s.seq.occupancy ∧
    (completeClaim c s).seq.serviceSelected = s.seq.serviceSelected ∧ (completeClaim c s).seq.sessionOrigin = s.seq.sessionOrigin ∧
    (completeClaim c s).seq.tripCounter = s.seq.tripCounter := by
  refine ⟨?_, ?_, ?_, ?_, ?_, ?_, ?_, ?_, ?_, ?_, ?_, ?_, ?_, ?_, ?_, ?_, ?_, ?_, ?_⟩ <;>
    first | rfl | simp [completeClaim]

@[simp] theorem completePresence_keeps (s : State) :
    (completePresence s).now = s.now ∧ (completePresence s).pending = s.pending ∧
    (completePresence s).freeCount = s.freeCount ∧ (completePresence s).pins = s.pins ∧
    (completePresence s).station = s.station ∧ (completePresence s).config = s.config ∧
    (completePresence s).seq = s.seq ∧ (completePresence s).adm = s.adm ∧
    (completePresence s).supply = s.supply ∧ (completePresence s).roster = s.roster ∧
    (completePresence s).line = s.line ∧ (completePresence s).link = s.link ∧
    (completePresence s).con.roundOpen = s.con.roundOpen := by
  refine ⟨?_, ?_, ?_, ?_, ?_, ?_, ?_, ?_, ?_, ?_, ?_, ?_, ?_⟩ <;> rfl

@[simp] theorem completeOwn_keeps (b : Body) (s : State) :
    (completeOwn b s).now = s.now ∧ (completeOwn b s).pending = s.pending ∧
    (completeOwn b s).freeCount = s.freeCount ∧ (completeOwn b s).pins = s.pins ∧
    (completeOwn b s).station = s.station ∧ (completeOwn b s).config = s.config ∧
    (completeOwn b s).con.roundOpen = s.con.roundOpen ∧ (completeOwn b s).link.accept = s.link.accept ∧
    (completeOwn b s).link.reject = s.link.reject ∧ (completeOwn b s).link.receiver = s.link.receiver ∧
    (completeOwn b s).supply.trn = s.supply.trn ∧ (completeOwn b s).supply.freqClass = s.supply.freqClass ∧
    (completeOwn b s).seq.duplicate = s.seq.duplicate ∧ (completeOwn b s).seq.occupancy = s.seq.occupancy ∧
    (completeOwn b s).seq.serviceSelected = s.seq.serviceSelected ∧ (completeOwn b s).seq.sessionOrigin = s.seq.sessionOrigin ∧
    (completeOwn b s).seq.tripCounter = s.seq.tripCounter := by
  refine ⟨?_, ?_, ?_, ?_, ?_, ?_, ?_, ?_, ?_, ?_, ?_, ?_, ?_, ?_, ?_, ?_, ?_⟩ <;>
    first | rfl | (simp only [completeOwn]; (repeat' split) <;> simp [*])

@[simp] theorem leaveService_keeps (s : State) :
    (leaveService s).now = s.now ∧ (leaveService s).pending = s.pending ∧
    (leaveService s).freeCount = s.freeCount ∧ (leaveService s).pins = s.pins ∧
    (leaveService s).station = s.station ∧ (leaveService s).config = s.config ∧
    (leaveService s).supply = s.supply ∧ (leaveService s).roster = s.roster ∧
    (leaveService s).seq.state = s.seq.state ∧ (leaveService s).seq.runp = s.seq.runp ∧
    (leaveService s).con.spoken = s.con.spoken ∧ (leaveService s).con.roundOpen = s.con.roundOpen ∧
    (leaveService s).link.queue = s.link.queue ∧ (leaveService s).link.overrun = s.link.overrun ∧
    (leaveService s).link.accept = s.link.accept ∧ (leaveService s).link.reject = s.link.reject ∧
    (leaveService s).link.receiver = s.link.receiver ∧ (leaveService s).seq.duplicate = s.seq.duplicate ∧
    (leaveService s).seq.occupancy = s.seq.occupancy ∧ (leaveService s).seq.serviceSelected = s.seq.serviceSelected ∧
    (leaveService s).seq.sessionOrigin = s.seq.sessionOrigin ∧ (leaveService s).seq.tripCounter = s.seq.tripCounter := by
  refine ⟨?_, ?_, ?_, ?_, ?_, ?_, ?_, ?_, ?_, ?_, ?_, ?_, ?_, ?_, ?_, ?_, ?_, ?_, ?_, ?_, ?_, ?_⟩ <;>
    first | rfl | simp [leaveService]

@[simp] theorem settleReply_keeps (s : State) :
    (settleReply s).now = s.now ∧ (settleReply s).pending = s.pending ∧
    (settleReply s).freeCount = s.freeCount ∧ (settleReply s).pins = s.pins ∧
    (settleReply s).station = s.station ∧ (settleReply s).config = s.config ∧
    (settleReply s).seq = s.seq ∧ (settleReply s).adm = s.adm ∧
    (settleReply s).supply = s.supply ∧ (settleReply s).roster = s.roster ∧
    (settleReply s).line = s.line ∧ (settleReply s).con = s.con ∧
    (settleReply s).link.queue = s.link.queue ∧ (settleReply s).link.overrun = s.link.overrun ∧
    (settleReply s).link.accept = s.link.accept ∧ (settleReply s).link.reject = s.link.reject ∧
    (settleReply s).link.receiver = s.link.receiver := by
  refine ⟨?_, ?_, ?_, ?_, ?_, ?_, ?_, ?_, ?_, ?_, ?_, ?_, ?_, ?_, ?_, ?_, ?_⟩ <;>
    first | rfl | simp [settleReply]

@[simp] theorem enterFallback_keeps (s : State) :
    (enterFallback s).now = s.now ∧ (enterFallback s).pending = s.pending ∧
    (enterFallback s).freeCount = s.freeCount ∧ (enterFallback s).pins = s.pins ∧
    (enterFallback s).station = s.station ∧ (enterFallback s).config = s.config ∧
    (enterFallback s).supply = s.supply ∧ (enterFallback s).roster = s.roster ∧
    (enterFallback s).con.spoken = s.con.spoken ∧ (enterFallback s).con.roundOpen = s.con.roundOpen ∧
    (enterFallback s).link.queue = s.link.queue ∧ (enterFallback s).link.overrun = s.link.overrun ∧
    (enterFallback s).link.accept = s.link.accept ∧ (enterFallback s).link.reject = s.link.reject ∧
    (enterFallback s).link.receiver = s.link.receiver ∧ (enterFallback s).seq.duplicate = s.seq.duplicate ∧
    (enterFallback s).seq.occupancy = s.seq.occupancy ∧ (enterFallback s).seq.serviceSelected = s.seq.serviceSelected ∧
    (enterFallback s).seq.sessionOrigin = s.seq.sessionOrigin ∧ (enterFallback s).seq.tripCounter = s.seq.tripCounter := by
  refine ⟨?_, ?_, ?_, ?_, ?_, ?_, ?_, ?_, ?_, ?_, ?_, ?_, ?_, ?_, ?_, ?_, ?_, ?_, ?_, ?_⟩ <;>
    first | rfl | simp [enterFallback]

@[simp] theorem failSlot_keeps (b : Body) (s : State) :
    (failSlot b s).now = s.now ∧ (failSlot b s).pending = s.pending ∧
    (failSlot b s).freeCount = s.freeCount ∧ (failSlot b s).pins = s.pins ∧
    (failSlot b s).station = s.station ∧ (failSlot b s).config = s.config ∧
    (failSlot b s).supply = s.supply ∧ (failSlot b s).roster = s.roster ∧
    (failSlot b s).seq.runp = s.seq.runp ∧ (failSlot b s).con.spoken = s.con.spoken ∧
    (failSlot b s).con.roundOpen = s.con.roundOpen ∧ (failSlot b s).link.queue = s.link.queue ∧
    (failSlot b s).link.overrun = s.link.overrun ∧ (failSlot b s).link.accept = s.link.accept ∧
    (failSlot b s).link.reject = s.link.reject ∧ (failSlot b s).link.receiver = s.link.receiver ∧
    (failSlot b s).seq.duplicate = s.seq.duplicate ∧ (failSlot b s).seq.occupancy = s.seq.occupancy ∧
    (failSlot b s).seq.serviceSelected = s.seq.serviceSelected ∧ (failSlot b s).seq.sessionOrigin = s.seq.sessionOrigin ∧
    (failSlot b s).seq.tripCounter = s.seq.tripCounter := by
  refine ⟨?_, ?_, ?_, ?_, ?_, ?_, ?_, ?_, ?_, ?_, ?_, ?_, ?_, ?_, ?_, ?_, ?_, ?_, ?_, ?_, ?_⟩ <;>
    first | rfl | (simp only [failSlot]; (repeat' split) <;> simp [*])

@[simp] theorem failAttempt_keeps (s : State) :
    (failAttempt s).now = s.now ∧ (failAttempt s).pending = s.pending ∧
    (failAttempt s).freeCount = s.freeCount ∧ (failAttempt s).pins = s.pins ∧
    (failAttempt s).station = s.station ∧ (failAttempt s).config = s.config ∧
    (failAttempt s).supply = s.supply ∧ (failAttempt s).roster = s.roster ∧
    (failAttempt s).con.spoken = s.con.spoken ∧ (failAttempt s).con.roundOpen = s.con.roundOpen ∧
    (failAttempt s).link.queue = s.link.queue ∧ (failAttempt s).link.overrun = s.link.overrun ∧
    (failAttempt s).link.accept = s.link.accept ∧ (failAttempt s).link.reject = s.link.reject ∧
    (failAttempt s).link.receiver = s.link.receiver ∧ (failAttempt s).seq.duplicate = s.seq.duplicate ∧
    (failAttempt s).seq.occupancy = s.seq.occupancy ∧ (failAttempt s).seq.serviceSelected = s.seq.serviceSelected ∧
    (failAttempt s).seq.sessionOrigin = s.seq.sessionOrigin ∧ (failAttempt s).seq.tripCounter = s.seq.tripCounter := by
  refine ⟨?_, ?_, ?_, ?_, ?_, ?_, ?_, ?_, ?_, ?_, ?_, ?_, ?_, ?_, ?_, ?_, ?_, ?_, ?_, ?_⟩ <;>
    first | rfl | (simp only [failAttempt]; (repeat' split) <;> simp [*])

@[simp] theorem enterJoining_keeps (s : State) :
    (enterJoining s).now = s.now ∧ (enterJoining s).pending = s.pending ∧
    (enterJoining s).freeCount = s.freeCount ∧ (enterJoining s).pins = s.pins ∧
    (enterJoining s).station = s.station ∧ (enterJoining s).config = s.config ∧
    (enterJoining s).line = s.line ∧ (enterJoining s).seq.runp = s.seq.runp ∧
    (enterJoining s).con.spoken = s.con.spoken ∧ (enterJoining s).con.roundOpen = s.con.roundOpen ∧
    (enterJoining s).link.queue = s.link.queue ∧ (enterJoining s).link.overrun = s.link.overrun ∧
    (enterJoining s).link.accept = s.link.accept ∧ (enterJoining s).link.reject = s.link.reject ∧
    (enterJoining s).link.receiver = s.link.receiver ∧ (enterJoining s).supply.trn = s.supply.trn ∧
    (enterJoining s).supply.freqClass = s.supply.freqClass ∧ (enterJoining s).seq.duplicate = s.seq.duplicate ∧
    (enterJoining s).seq.occupancy = s.seq.occupancy ∧ (enterJoining s).seq.serviceSelected = s.seq.serviceSelected ∧
    (enterJoining s).seq.sessionOrigin = s.seq.sessionOrigin ∧ (enterJoining s).seq.tripCounter = s.seq.tripCounter := by
  refine ⟨?_, ?_, ?_, ?_, ?_, ?_, ?_, ?_, ?_, ?_, ?_, ?_, ?_, ?_, ?_, ?_, ?_, ?_, ?_, ?_, ?_, ?_⟩ <;>
    first | rfl | simp [enterJoining]

@[simp] theorem enterAwaitSupply_keeps (w : Nat) (s : State) :
    (enterAwaitSupply w s).now = s.now ∧ (enterAwaitSupply w s).pending = s.pending ∧
    (enterAwaitSupply w s).freeCount = s.freeCount ∧ (enterAwaitSupply w s).pins = s.pins ∧
    (enterAwaitSupply w s).station = s.station ∧ (enterAwaitSupply w s).config = s.config ∧
    (enterAwaitSupply w s).line = s.line ∧ (enterAwaitSupply w s).con.spoken = s.con.spoken ∧
    (enterAwaitSupply w s).con.roundOpen = s.con.roundOpen ∧ (enterAwaitSupply w s).link.queue = s.link.queue ∧
    (enterAwaitSupply w s).link.overrun = s.link.overrun ∧ (enterAwaitSupply w s).link.accept = s.link.accept ∧
    (enterAwaitSupply w s).link.reject = s.link.reject ∧ (enterAwaitSupply w s).link.receiver = s.link.receiver ∧
    (enterAwaitSupply w s).supply.trn = s.supply.trn ∧ (enterAwaitSupply w s).supply.freqClass = s.supply.freqClass ∧
    (enterAwaitSupply w s).seq.duplicate = s.seq.duplicate ∧ (enterAwaitSupply w s).seq.occupancy = s.seq.occupancy ∧
    (enterAwaitSupply w s).seq.serviceSelected = s.seq.serviceSelected ∧ (enterAwaitSupply w s).seq.sessionOrigin = s.seq.sessionOrigin ∧
    (enterAwaitSupply w s).seq.tripCounter = s.seq.tripCounter := by
  refine ⟨?_, ?_, ?_, ?_, ?_, ?_, ?_, ?_, ?_, ?_, ?_, ?_, ?_, ?_, ?_, ?_, ?_, ?_, ?_, ?_, ?_⟩ <;>
    first | rfl | (simp only [enterAwaitSupply]; (repeat' split) <;> simp [*])

@[simp] theorem enterNoSupply_keeps (s : State) :
    (enterNoSupply s).now = s.now ∧ (enterNoSupply s).pending = s.pending ∧
    (enterNoSupply s).freeCount = s.freeCount ∧ (enterNoSupply s).pins = s.pins ∧
    (enterNoSupply s).station = s.station ∧ (enterNoSupply s).config = s.config ∧
    (enterNoSupply s).line = s.line ∧ (enterNoSupply s).seq.runp = s.seq.runp ∧
    (enterNoSupply s).con.spoken = s.con.spoken ∧ (enterNoSupply s).con.roundOpen = s.con.roundOpen ∧
    (enterNoSupply s).link.queue = s.link.queue ∧ (enterNoSupply s).link.overrun = s.link.overrun ∧
    (enterNoSupply s).link.accept = s.link.accept ∧ (enterNoSupply s).link.reject = s.link.reject ∧
    (enterNoSupply s).link.receiver = s.link.receiver ∧ (enterNoSupply s).supply.trn = s.supply.trn ∧
    (enterNoSupply s).supply.freqClass = s.supply.freqClass ∧ (enterNoSupply s).seq.duplicate = s.seq.duplicate ∧
    (enterNoSupply s).seq.occupancy = s.seq.occupancy ∧ (enterNoSupply s).seq.serviceSelected = s.seq.serviceSelected ∧
    (enterNoSupply s).seq.sessionOrigin = s.seq.sessionOrigin ∧ (enterNoSupply s).seq.tripCounter = s.seq.tripCounter := by
  refine ⟨?_, ?_, ?_, ?_, ?_, ?_, ?_, ?_, ?_, ?_, ?_, ?_, ?_, ?_, ?_, ?_, ?_, ?_, ?_, ?_, ?_, ?_⟩ <;>
    first | rfl | (simp only [enterNoSupply]; (repeat' split) <;> simp [*])

@[simp] theorem onSupplyGood_keeps (s : State) :
    (onSupplyGood s).now = s.now ∧ (onSupplyGood s).pending = s.pending ∧
    (onSupplyGood s).freeCount = s.freeCount ∧ (onSupplyGood s).pins = s.pins ∧
    (onSupplyGood s).station = s.station ∧ (onSupplyGood s).config = s.config ∧
    (onSupplyGood s).line = s.line ∧ (onSupplyGood s).seq.runp = s.seq.runp ∧
    (onSupplyGood s).con.spoken = s.con.spoken ∧ (onSupplyGood s).con.roundOpen = s.con.roundOpen ∧
    (onSupplyGood s).link.queue = s.link.queue ∧ (onSupplyGood s).link.overrun = s.link.overrun ∧
    (onSupplyGood s).link.accept = s.link.accept ∧ (onSupplyGood s).link.reject = s.link.reject ∧
    (onSupplyGood s).link.receiver = s.link.receiver ∧ (onSupplyGood s).supply.trn = s.supply.trn ∧
    (onSupplyGood s).supply.freqClass = s.supply.freqClass ∧ (onSupplyGood s).seq.duplicate = s.seq.duplicate ∧
    (onSupplyGood s).seq.occupancy = s.seq.occupancy ∧ (onSupplyGood s).seq.serviceSelected = s.seq.serviceSelected ∧
    (onSupplyGood s).seq.sessionOrigin = s.seq.sessionOrigin ∧ (onSupplyGood s).seq.tripCounter = s.seq.tripCounter := by
  refine ⟨?_, ?_, ?_, ?_, ?_, ?_, ?_, ?_, ?_, ?_, ?_, ?_, ?_, ?_, ?_, ?_, ?_, ?_, ?_, ?_, ?_, ?_⟩ <;>
    first | rfl | (simp only [onSupplyGood]; (repeat' split) <;> simp [*])

@[simp] theorem onSupplyLoss_keeps (s : State) :
    (onSupplyLoss s).now = s.now ∧ (onSupplyLoss s).pending = s.pending ∧
    (onSupplyLoss s).freeCount = s.freeCount ∧ (onSupplyLoss s).pins = s.pins ∧
    (onSupplyLoss s).station = s.station ∧ (onSupplyLoss s).config = s.config ∧
    (onSupplyLoss s).con.spoken = s.con.spoken ∧ (onSupplyLoss s).con.roundOpen = s.con.roundOpen ∧
    (onSupplyLoss s).link.queue = s.link.queue ∧ (onSupplyLoss s).link.overrun = s.link.overrun ∧
    (onSupplyLoss s).link.accept = s.link.accept ∧ (onSupplyLoss s).link.reject = s.link.reject ∧
    (onSupplyLoss s).link.receiver = s.link.receiver ∧ (onSupplyLoss s).supply.trn = s.supply.trn ∧
    (onSupplyLoss s).supply.freqClass = s.supply.freqClass ∧ (onSupplyLoss s).seq.duplicate = s.seq.duplicate ∧
    (onSupplyLoss s).seq.occupancy = s.seq.occupancy ∧ (onSupplyLoss s).seq.serviceSelected = s.seq.serviceSelected ∧
    (onSupplyLoss s).seq.sessionOrigin = s.seq.sessionOrigin ∧ (onSupplyLoss s).seq.tripCounter = s.seq.tripCounter := by
  refine ⟨?_, ?_, ?_, ?_, ?_, ?_, ?_, ?_, ?_, ?_, ?_, ?_, ?_, ?_, ?_, ?_, ?_, ?_, ?_, ?_⟩ <;>
    first | rfl | simp [onSupplyLoss]

@[simp] theorem enterIsolated_keeps (s : State) :
    (enterIsolated s).now = s.now ∧ (enterIsolated s).pending = s.pending ∧
    (enterIsolated s).freeCount = s.freeCount ∧ (enterIsolated s).pins = s.pins ∧
    (enterIsolated s).station = s.station ∧ (enterIsolated s).config = s.config ∧
    (enterIsolated s).roster = s.roster ∧ (enterIsolated s).con.spoken = s.con.spoken ∧
    (enterIsolated s).con.roundOpen = s.con.roundOpen ∧ (enterIsolated s).link.queue = s.link.queue ∧
    (enterIsolated s).link.overrun = s.link.overrun ∧ (enterIsolated s).link.accept = s.link.accept ∧
    (enterIsolated s).link.reject = s.link.reject ∧ (enterIsolated s).link.receiver = s.link.receiver ∧
    (enterIsolated s).supply.trn = s.supply.trn ∧ (enterIsolated s).supply.freqClass = s.supply.freqClass ∧
    (enterIsolated s).seq.duplicate = s.seq.duplicate ∧ (enterIsolated s).seq.occupancy = s.seq.occupancy ∧
    (enterIsolated s).seq.serviceSelected = s.seq.serviceSelected ∧ (enterIsolated s).seq.sessionOrigin = s.seq.sessionOrigin ∧
    (enterIsolated s).seq.tripCounter = s.seq.tripCounter := by
  refine ⟨?_, ?_, ?_, ?_, ?_, ?_, ?_, ?_, ?_, ?_, ?_, ?_, ?_, ?_, ?_, ?_, ?_, ?_, ?_, ?_, ?_⟩ <;>
    first | rfl | simp [enterIsolated]

@[simp] theorem onTakeover_keeps (s : State) :
    (onTakeover s).now = s.now ∧ (onTakeover s).pending = s.pending ∧
    (onTakeover s).freeCount = s.freeCount ∧ (onTakeover s).pins = s.pins ∧
    (onTakeover s).station = s.station ∧ (onTakeover s).config = s.config ∧
    (onTakeover s).con.spoken = s.con.spoken ∧ (onTakeover s).con.roundOpen = s.con.roundOpen ∧
    (onTakeover s).link.queue = s.link.queue ∧ (onTakeover s).link.overrun = s.link.overrun ∧
    (onTakeover s).link.accept = s.link.accept ∧ (onTakeover s).link.reject = s.link.reject ∧
    (onTakeover s).link.receiver = s.link.receiver ∧ (onTakeover s).supply.trn = s.supply.trn ∧
    (onTakeover s).supply.freqClass = s.supply.freqClass ∧ (onTakeover s).seq.duplicate = s.seq.duplicate ∧
    (onTakeover s).seq.occupancy = s.seq.occupancy ∧ (onTakeover s).seq.serviceSelected = s.seq.serviceSelected ∧
    (onTakeover s).seq.tripCounter = s.seq.tripCounter := by
  refine ⟨?_, ?_, ?_, ?_, ?_, ?_, ?_, ?_, ?_, ?_, ?_, ?_, ?_, ?_, ?_, ?_, ?_, ?_, ?_⟩ <;>
    first | rfl | (simp only [onTakeover]; (repeat' split) <;> simp [*])

@[simp] theorem supplyAtSessionEnd_keeps (s : State) :
    (supplyAtSessionEnd s).now = s.now ∧ (supplyAtSessionEnd s).pending = s.pending ∧
    (supplyAtSessionEnd s).freeCount = s.freeCount ∧ (supplyAtSessionEnd s).pins = s.pins ∧
    (supplyAtSessionEnd s).station = s.station ∧ (supplyAtSessionEnd s).config = s.config ∧
    (supplyAtSessionEnd s).seq = s.seq ∧ (supplyAtSessionEnd s).adm = s.adm ∧
    (supplyAtSessionEnd s).roster = s.roster ∧ (supplyAtSessionEnd s).line = s.line ∧
    (supplyAtSessionEnd s).con = s.con ∧ (supplyAtSessionEnd s).link = s.link ∧
    (supplyAtSessionEnd s).supply.trn = s.supply.trn ∧ (supplyAtSessionEnd s).supply.freqClass = s.supply.freqClass := by
  refine ⟨?_, ?_, ?_, ?_, ?_, ?_, ?_, ?_, ?_, ?_, ?_, ?_, ?_, ?_⟩ <;> rfl

@[simp] theorem endSession_keeps (s : State) :
    (endSession s).now = s.now ∧ (endSession s).pending = s.pending ∧
    (endSession s).freeCount = s.freeCount ∧ (endSession s).pins = s.pins ∧
    (endSession s).station = s.station ∧ (endSession s).config = s.config ∧
    (endSession s).supply = s.supply ∧ (endSession s).con.spoken = s.con.spoken ∧
    (endSession s).con.roundOpen = s.con.roundOpen ∧ (endSession s).link.queue = s.link.queue ∧
    (endSession s).link.overrun = s.link.overrun ∧ (endSession s).link.accept = s.link.accept ∧
    (endSession s).link.reject = s.link.reject ∧ (endSession s).link.receiver = s.link.receiver ∧
    (endSession s).seq.duplicate = s.seq.duplicate ∧ (endSession s).seq.occupancy = s.seq.occupancy ∧
    (endSession s).seq.serviceSelected = s.seq.serviceSelected ∧ (endSession s).seq.tripCounter = s.seq.tripCounter := by
  refine ⟨?_, ?_, ?_, ?_, ?_, ?_, ?_, ?_, ?_, ?_, ?_, ?_, ?_, ?_, ?_, ?_, ?_, ?_⟩ <;>
    first | rfl | simp [endSession]

@[simp] theorem onRetransfer_keeps (s : State) :
    (onRetransfer s).now = s.now ∧ (onRetransfer s).pending = s.pending ∧
    (onRetransfer s).freeCount = s.freeCount ∧ (onRetransfer s).pins = s.pins ∧
    (onRetransfer s).station = s.station ∧ (onRetransfer s).config = s.config ∧
    (onRetransfer s).con.spoken = s.con.spoken ∧ (onRetransfer s).con.roundOpen = s.con.roundOpen ∧
    (onRetransfer s).link.queue = s.link.queue ∧ (onRetransfer s).link.overrun = s.link.overrun ∧
    (onRetransfer s).link.accept = s.link.accept ∧ (onRetransfer s).link.reject = s.link.reject ∧
    (onRetransfer s).link.receiver = s.link.receiver ∧ (onRetransfer s).supply.trn = s.supply.trn ∧
    (onRetransfer s).supply.freqClass = s.supply.freqClass ∧ (onRetransfer s).seq.duplicate = s.seq.duplicate ∧
    (onRetransfer s).seq.occupancy = s.seq.occupancy ∧ (onRetransfer s).seq.serviceSelected = s.seq.serviceSelected ∧
    (onRetransfer s).seq.tripCounter = s.seq.tripCounter := by
  refine ⟨?_, ?_, ?_, ?_, ?_, ?_, ?_, ?_, ?_, ?_, ?_, ?_, ?_, ?_, ?_, ?_, ?_, ?_, ?_⟩ <;>
    first | rfl | (simp only [onRetransfer]; (repeat' split) <;> simp [*])

@[simp] theorem supplyEdge_keeps (b : SupplyMonitor) (s : State) :
    (supplyEdge b s).now = s.now ∧ (supplyEdge b s).pending = s.pending ∧
    (supplyEdge b s).freeCount = s.freeCount ∧ (supplyEdge b s).pins = s.pins ∧
    (supplyEdge b s).station = s.station ∧ (supplyEdge b s).config = s.config ∧
    (supplyEdge b s).con.spoken = s.con.spoken ∧ (supplyEdge b s).con.roundOpen = s.con.roundOpen ∧
    (supplyEdge b s).link.queue = s.link.queue ∧ (supplyEdge b s).link.overrun = s.link.overrun ∧
    (supplyEdge b s).link.accept = s.link.accept ∧ (supplyEdge b s).link.reject = s.link.reject ∧
    (supplyEdge b s).link.receiver = s.link.receiver ∧ (supplyEdge b s).supply.trn = s.supply.trn ∧
    (supplyEdge b s).supply.freqClass = s.supply.freqClass ∧ (supplyEdge b s).seq.duplicate = s.seq.duplicate ∧
    (supplyEdge b s).seq.occupancy = s.seq.occupancy ∧ (supplyEdge b s).seq.serviceSelected = s.seq.serviceSelected ∧
    (supplyEdge b s).seq.sessionOrigin = s.seq.sessionOrigin ∧ (supplyEdge b s).seq.tripCounter = s.seq.tripCounter := by
  refine ⟨?_, ?_, ?_, ?_, ?_, ?_, ?_, ?_, ?_, ?_, ?_, ?_, ?_, ?_, ?_, ?_, ?_, ?_, ?_, ?_⟩ <;>
    first | rfl | (simp only [supplyEdge]; (repeat' split) <;> simp [*])

@[simp] theorem becomeClass_keeps (c : FreqClass) (s : State) :
    (becomeClass c s).now = s.now ∧ (becomeClass c s).pending = s.pending ∧
    (becomeClass c s).freeCount = s.freeCount ∧ (becomeClass c s).pins = s.pins ∧
    (becomeClass c s).station = s.station ∧ (becomeClass c s).config = s.config ∧
    (becomeClass c s).con.spoken = s.con.spoken ∧ (becomeClass c s).con.roundOpen = s.con.roundOpen ∧
    (becomeClass c s).link.queue = s.link.queue ∧ (becomeClass c s).link.overrun = s.link.overrun ∧
    (becomeClass c s).link.accept = s.link.accept ∧ (becomeClass c s).link.reject = s.link.reject ∧
    (becomeClass c s).link.receiver = s.link.receiver ∧ (becomeClass c s).seq.duplicate = s.seq.duplicate ∧
    (becomeClass c s).seq.occupancy = s.seq.occupancy ∧ (becomeClass c s).seq.serviceSelected = s.seq.serviceSelected ∧
    (becomeClass c s).seq.sessionOrigin = s.seq.sessionOrigin ∧ (becomeClass c s).seq.tripCounter = s.seq.tripCounter := by
  refine ⟨?_, ?_, ?_, ?_, ?_, ?_, ?_, ?_, ?_, ?_, ?_, ?_, ?_, ?_, ?_, ?_, ?_, ?_⟩ <;>
    first | rfl | simp [becomeClass]

@[simp] theorem beginTrain_keeps (s : State) :
    (beginTrain s).now = s.now ∧ (beginTrain s).pending = s.pending ∧
    (beginTrain s).freeCount = s.freeCount ∧ (beginTrain s).pins = s.pins ∧
    (beginTrain s).station = s.station ∧ (beginTrain s).config = s.config ∧
    (beginTrain s).seq = s.seq ∧ (beginTrain s).adm = s.adm ∧
    (beginTrain s).roster = s.roster ∧ (beginTrain s).line = s.line ∧
    (beginTrain s).con = s.con ∧ (beginTrain s).link = s.link ∧
    (beginTrain s).supply.trn = s.supply.trn ∧ (beginTrain s).supply.freqClass = s.supply.freqClass := by
  refine ⟨?_, ?_, ?_, ?_, ?_, ?_, ?_, ?_, ?_, ?_, ?_, ?_, ?_, ?_⟩ <;> rfl

@[simp] theorem becomeAbsent_keeps (s : State) :
    (becomeAbsent s).now = s.now ∧ (becomeAbsent s).pending = s.pending ∧
    (becomeAbsent s).freeCount = s.freeCount ∧ (becomeAbsent s).pins = s.pins ∧
    (becomeAbsent s).station = s.station ∧ (becomeAbsent s).config = s.config ∧
    (becomeAbsent s).con.spoken = s.con.spoken ∧ (becomeAbsent s).con.roundOpen = s.con.roundOpen ∧
    (becomeAbsent s).link.queue = s.link.queue ∧ (becomeAbsent s).link.overrun = s.link.overrun ∧
    (becomeAbsent s).link.accept = s.link.accept ∧ (becomeAbsent s).link.reject = s.link.reject ∧
    (becomeAbsent s).link.receiver = s.link.receiver ∧ (becomeAbsent s).seq.duplicate = s.seq.duplicate ∧
    (becomeAbsent s).seq.occupancy = s.seq.occupancy ∧ (becomeAbsent s).seq.serviceSelected = s.seq.serviceSelected ∧
    (becomeAbsent s).seq.sessionOrigin = s.seq.sessionOrigin ∧ (becomeAbsent s).seq.tripCounter = s.seq.tripCounter := by
  refine ⟨?_, ?_, ?_, ?_, ?_, ?_, ?_, ?_, ?_, ?_, ?_, ?_, ?_, ?_, ?_, ?_, ?_, ?_⟩ <;>
    first | rfl | simp [becomeAbsent]

@[simp] theorem reformCap_keeps (s : State) :
    (reformCap s).now = s.now ∧ (reformCap s).pending = s.pending ∧
    (reformCap s).freeCount = s.freeCount ∧ (reformCap s).pins = s.pins ∧
    (reformCap s).station = s.station ∧ (reformCap s).config = s.config ∧
    (reformCap s).roster = s.roster ∧ (reformCap s).line = s.line ∧
    (reformCap s).seq.runp = s.seq.runp ∧ (reformCap s).con.spoken = s.con.spoken ∧
    (reformCap s).con.roundOpen = s.con.roundOpen ∧ (reformCap s).link.queue = s.link.queue ∧
    (reformCap s).link.overrun = s.link.overrun ∧ (reformCap s).link.accept = s.link.accept ∧
    (reformCap s).link.reject = s.link.reject ∧ (reformCap s).link.receiver = s.link.receiver ∧
    (reformCap s).supply.trn = s.supply.trn ∧ (reformCap s).supply.freqClass = s.supply.freqClass ∧
    (reformCap s).seq.duplicate = s.seq.duplicate ∧ (reformCap s).seq.occupancy = s.seq.occupancy ∧
    (reformCap s).seq.serviceSelected = s.seq.serviceSelected ∧ (reformCap s).seq.sessionOrigin = s.seq.sessionOrigin ∧
    (reformCap s).seq.tripCounter = s.seq.tripCounter := by
  refine ⟨?_, ?_, ?_, ?_, ?_, ?_, ?_, ?_, ?_, ?_, ?_, ?_, ?_, ?_, ?_, ?_, ?_, ?_, ?_, ?_, ?_, ?_, ?_⟩ <;>
    first | rfl | (simp only [reformCap]; (repeat' split) <;> simp [*])

@[simp] theorem startFallbackTrip_keeps (s : State) :
    (startFallbackTrip s).now = s.now ∧ (startFallbackTrip s).pending = s.pending ∧
    (startFallbackTrip s).freeCount = s.freeCount ∧ (startFallbackTrip s).pins = s.pins ∧
    (startFallbackTrip s).station = s.station ∧ (startFallbackTrip s).config = s.config ∧
    (startFallbackTrip s).supply = s.supply ∧ (startFallbackTrip s).roster = s.roster ∧
    (startFallbackTrip s).line = s.line ∧ (startFallbackTrip s).con = s.con ∧
    (startFallbackTrip s).seq.state = s.seq.state ∧ (startFallbackTrip s).link.queue = s.link.queue ∧
    (startFallbackTrip s).link.overrun = s.link.overrun ∧ (startFallbackTrip s).link.accept = s.link.accept ∧
    (startFallbackTrip s).link.reject = s.link.reject ∧ (startFallbackTrip s).link.receiver = s.link.receiver ∧
    (startFallbackTrip s).seq.duplicate = s.seq.duplicate ∧ (startFallbackTrip s).seq.occupancy = s.seq.occupancy ∧
    (startFallbackTrip s).seq.serviceSelected = s.seq.serviceSelected ∧ (startFallbackTrip s).seq.sessionOrigin = s.seq.sessionOrigin ∧
    (startFallbackTrip s).seq.tripCounter = s.seq.tripCounter := by
  refine ⟨?_, ?_, ?_, ?_, ?_, ?_, ?_, ?_, ?_, ?_, ?_, ?_, ?_, ?_, ?_, ?_, ?_, ?_, ?_, ?_, ?_⟩ <;>
    first | rfl | (simp only [startFallbackTrip]; (repeat' split) <;> simp [*])

@[simp] theorem startIfOpen_keeps (s : State) :
    (startIfOpen s).now = s.now ∧ (startIfOpen s).pending = s.pending ∧
    (startIfOpen s).freeCount = s.freeCount ∧ (startIfOpen s).pins = s.pins ∧
    (startIfOpen s).station = s.station ∧ (startIfOpen s).config = s.config ∧
    (startIfOpen s).supply = s.supply ∧ (startIfOpen s).roster = s.roster ∧
    (startIfOpen s).line = s.line ∧ (startIfOpen s).con = s.con ∧
    (startIfOpen s).seq.state = s.seq.state ∧ (startIfOpen s).link.queue = s.link.queue ∧
    (startIfOpen s).link.overrun = s.link.overrun ∧ (startIfOpen s).link.accept = s.link.accept ∧
    (startIfOpen s).link.reject = s.link.reject ∧ (startIfOpen s).link.receiver = s.link.receiver ∧
    (startIfOpen s).seq.duplicate = s.seq.duplicate ∧ (startIfOpen s).seq.occupancy = s.seq.occupancy ∧
    (startIfOpen s).seq.serviceSelected = s.seq.serviceSelected ∧ (startIfOpen s).seq.sessionOrigin = s.seq.sessionOrigin ∧
    (startIfOpen s).seq.tripCounter = s.seq.tripCounter := by
  refine ⟨?_, ?_, ?_, ?_, ?_, ?_, ?_, ?_, ?_, ?_, ?_, ?_, ?_, ?_, ?_, ?_, ?_, ?_, ?_, ?_, ?_⟩ <;>
    first | rfl | (simp only [startIfOpen]; (repeat' split) <;> simp [*])

@[simp] theorem endFallbackRun_keeps (s : State) :
    (endFallbackRun s).now = s.now ∧ (endFallbackRun s).pending = s.pending ∧
    (endFallbackRun s).freeCount = s.freeCount ∧ (endFallbackRun s).pins = s.pins ∧
    (endFallbackRun s).station = s.station ∧ (endFallbackRun s).config = s.config ∧
    (endFallbackRun s).supply = s.supply ∧ (endFallbackRun s).roster = s.roster ∧
    (endFallbackRun s).line = s.line ∧ (endFallbackRun s).con = s.con ∧
    (endFallbackRun s).seq.state = s.seq.state ∧ (endFallbackRun s).link.queue = s.link.queue ∧
    (endFallbackRun s).link.overrun = s.link.overrun ∧ (endFallbackRun s).link.accept = s.link.accept ∧
    (endFallbackRun s).link.reject = s.link.reject ∧ (endFallbackRun s).link.receiver = s.link.receiver ∧
    (endFallbackRun s).seq.duplicate = s.seq.duplicate ∧ (endFallbackRun s).seq.occupancy = s.seq.occupancy ∧
    (endFallbackRun s).seq.serviceSelected = s.seq.serviceSelected ∧ (endFallbackRun s).seq.sessionOrigin = s.seq.sessionOrigin ∧
    (endFallbackRun s).seq.tripCounter = s.seq.tripCounter := by
  refine ⟨?_, ?_, ?_, ?_, ?_, ?_, ?_, ?_, ?_, ?_, ?_, ?_, ?_, ?_, ?_, ?_, ?_, ?_, ?_, ?_, ?_⟩ <;>
    first | rfl | simp [endFallbackRun]

@[simp] theorem lineError_keeps (k : LineError) (s : State) :
    (lineError k s).now = s.now ∧ (lineError k s).pending = s.pending ∧
    (lineError k s).freeCount = s.freeCount ∧ (lineError k s).pins = s.pins ∧
    (lineError k s).station = s.station ∧ (lineError k s).config = s.config ∧
    (lineError k s).seq = s.seq ∧ (lineError k s).supply = s.supply ∧
    (lineError k s).roster = s.roster ∧ (lineError k s).con = s.con ∧
    (lineError k s).link.queue = s.link.queue ∧ (lineError k s).link.overrun = s.link.overrun ∧
    (lineError k s).link.accept = s.link.accept ∧ (lineError k s).link.reject = s.link.reject ∧
    (lineError k s).link.receiver = s.link.receiver := by
  refine ⟨?_, ?_, ?_, ?_, ?_, ?_, ?_, ?_, ?_, ?_, ?_, ?_, ?_, ?_, ?_⟩ <;>
    first | rfl | (simp only [lineError]; (repeat' split) <;> simp [*])

@[simp] theorem reportActivity_keeps (s : State) :
    (reportActivity s).now = s.now ∧ (reportActivity s).pending = s.pending ∧
    (reportActivity s).freeCount = s.freeCount ∧ (reportActivity s).pins = s.pins ∧
    (reportActivity s).station = s.station ∧ (reportActivity s).config = s.config ∧
    (reportActivity s).adm = s.adm ∧ (reportActivity s).supply = s.supply ∧
    (reportActivity s).roster = s.roster ∧ (reportActivity s).seq.state = s.seq.state ∧
    (reportActivity s).seq.runp = s.seq.runp ∧ (reportActivity s).con.spoken = s.con.spoken ∧
    (reportActivity s).con.roundOpen = s.con.roundOpen ∧ (reportActivity s).link.queue = s.link.queue ∧
    (reportActivity s).link.overrun = s.link.overrun ∧ (reportActivity s).link.accept = s.link.accept ∧
    (reportActivity s).link.reject = s.link.reject ∧ (reportActivity s).link.receiver = s.link.receiver ∧
    (reportActivity s).seq.duplicate = s.seq.duplicate ∧ (reportActivity s).seq.occupancy = s.seq.occupancy ∧
    (reportActivity s).seq.serviceSelected = s.seq.serviceSelected ∧ (reportActivity s).seq.sessionOrigin = s.seq.sessionOrigin ∧
    (reportActivity s).seq.tripCounter = s.seq.tripCounter ∧ (reportActivity s).line = s.line := by
  unfold reportActivity
  simp

@[simp] theorem setLine_line (u : LineUnit) (s : State) : (setLine u s).line = u := by
  simp only [setLine]; split <;> simp

@[simp] theorem setLine_keeps (u : LineUnit) (s : State) :
    (setLine u s).now = s.now ∧ (setLine u s).pending = s.pending ∧
    (setLine u s).freeCount = s.freeCount ∧ (setLine u s).pins = s.pins ∧
    (setLine u s).station = s.station ∧ (setLine u s).config = s.config ∧
    (setLine u s).adm = s.adm ∧ (setLine u s).supply = s.supply ∧
    (setLine u s).roster = s.roster ∧ (setLine u s).seq.state = s.seq.state ∧
    (setLine u s).seq.runp = s.seq.runp ∧ (setLine u s).con.spoken = s.con.spoken ∧
    (setLine u s).con.roundOpen = s.con.roundOpen ∧ (setLine u s).link.queue = s.link.queue ∧
    (setLine u s).link.overrun = s.link.overrun ∧ (setLine u s).link.accept = s.link.accept ∧
    (setLine u s).link.reject = s.link.reject ∧ (setLine u s).link.receiver = s.link.receiver ∧
    (setLine u s).seq.duplicate = s.seq.duplicate ∧ (setLine u s).seq.occupancy = s.seq.occupancy ∧
    (setLine u s).seq.serviceSelected = s.seq.serviceSelected ∧ (setLine u s).seq.sessionOrigin = s.seq.sessionOrigin ∧
    (setLine u s).seq.tripCounter = s.seq.tripCounter := by
  unfold setLine
  split <;> simp

/-- Telling what comes writes nothing but what comes. -/
@[simp] theorem tell_line (changes : List LineChange) (s : State) :
    (tell changes s).line = { s.line with coming := s.line.coming ++ changes } := rfl

@[simp] theorem tell_keeps (changes : List LineChange) (s : State) :
    (tell changes s).now = s.now ∧ (tell changes s).pending = s.pending ∧
    (tell changes s).freeCount = s.freeCount ∧ (tell changes s).pins = s.pins ∧
    (tell changes s).station = s.station ∧ (tell changes s).config = s.config ∧
    (tell changes s).seq = s.seq ∧ (tell changes s).adm = s.adm ∧
    (tell changes s).supply = s.supply ∧ (tell changes s).roster = s.roster ∧
    (tell changes s).con = s.con ∧ (tell changes s).link = s.link := by
  refine ⟨?_, ?_, ?_, ?_, ?_, ?_, ?_, ?_, ?_, ?_, ?_, ?_⟩ <;> rfl

@[simp] theorem failAtBit_keeps (x : Sending) (k : Nat) (s : State) :
    (failAtBit x k s).pending = s.pending ∧ (failAtBit x k s).freeCount = s.freeCount ∧
    (failAtBit x k s).pins = s.pins ∧ (failAtBit x k s).station = s.station ∧
    (failAtBit x k s).config = s.config ∧ (failAtBit x k s).supply = s.supply ∧
    (failAtBit x k s).roster = s.roster ∧ (failAtBit x k s).con.spoken = s.con.spoken ∧
    (failAtBit x k s).con.roundOpen = s.con.roundOpen ∧ (failAtBit x k s).link.queue = s.link.queue ∧
    (failAtBit x k s).link.overrun = s.link.overrun ∧ (failAtBit x k s).link.accept = s.link.accept ∧
    (failAtBit x k s).link.reject = s.link.reject ∧ (failAtBit x k s).link.receiver = s.link.receiver ∧
    (failAtBit x k s).seq.duplicate = s.seq.duplicate ∧ (failAtBit x k s).seq.occupancy = s.seq.occupancy ∧
    (failAtBit x k s).seq.serviceSelected = s.seq.serviceSelected ∧ (failAtBit x k s).seq.sessionOrigin = s.seq.sessionOrigin ∧
    (failAtBit x k s).seq.tripCounter = s.seq.tripCounter := by
  simp [failAtBit]

@[simp] theorem takeDuplicate_keeps (s : State) :
    (takeDuplicate s).now = s.now ∧ (takeDuplicate s).pending = s.pending ∧
    (takeDuplicate s).freeCount = s.freeCount ∧ (takeDuplicate s).pins = s.pins ∧
    (takeDuplicate s).station = s.station ∧ (takeDuplicate s).config = s.config ∧
    (takeDuplicate s).roster = s.roster ∧ (takeDuplicate s).con.spoken = s.con.spoken ∧
    (takeDuplicate s).con.roundOpen = s.con.roundOpen ∧ (takeDuplicate s).link.queue = s.link.queue ∧
    (takeDuplicate s).link.overrun = s.link.overrun ∧ (takeDuplicate s).link.accept = s.link.accept ∧
    (takeDuplicate s).link.reject = s.link.reject ∧ (takeDuplicate s).link.receiver = s.link.receiver ∧
    (takeDuplicate s).supply.trn = s.supply.trn ∧ (takeDuplicate s).supply.freqClass = s.supply.freqClass ∧
    (takeDuplicate s).seq.occupancy = s.seq.occupancy ∧ (takeDuplicate s).seq.serviceSelected = s.seq.serviceSelected ∧
    (takeDuplicate s).seq.sessionOrigin = s.seq.sessionOrigin ∧ (takeDuplicate s).seq.tripCounter = s.seq.tripCounter := by
  refine ⟨?_, ?_, ?_, ?_, ?_, ?_, ?_, ?_, ?_, ?_, ?_, ?_, ?_, ?_, ?_, ?_, ?_, ?_, ?_, ?_⟩ <;>
    first | rfl | (simp only [takeDuplicate]; (repeat' split) <;> simp [*])

@[simp] theorem deliverMessage_keeps (m : Message) (s : State) :
    (deliverMessage m s).now = s.now ∧ (deliverMessage m s).pending = s.pending ∧
    (deliverMessage m s).freeCount = s.freeCount ∧ (deliverMessage m s).pins = s.pins ∧
    (deliverMessage m s).station = s.station ∧ (deliverMessage m s).config = s.config ∧
    (deliverMessage m s).con.spoken = s.con.spoken ∧ (deliverMessage m s).con.roundOpen = s.con.roundOpen ∧
    (deliverMessage m s).link.accept = s.link.accept ∧ (deliverMessage m s).link.reject = s.link.reject ∧
    (deliverMessage m s).link.receiver = s.link.receiver ∧ (deliverMessage m s).supply.trn = s.supply.trn ∧
    (deliverMessage m s).supply.freqClass = s.supply.freqClass ∧ (deliverMessage m s).seq.occupancy = s.seq.occupancy ∧
    (deliverMessage m s).seq.serviceSelected = s.seq.serviceSelected ∧ (deliverMessage m s).seq.sessionOrigin = s.seq.sessionOrigin ∧
    (deliverMessage m s).seq.tripCounter = s.seq.tripCounter := by
  refine ⟨?_, ?_, ?_, ?_, ?_, ?_, ?_, ?_, ?_, ?_, ?_, ?_, ?_, ?_, ?_, ?_, ?_⟩ <;>
    first | rfl | (simp only [deliverMessage]; (repeat' split) <;> simp [*])

@[simp] theorem judgeAndDeliver_keeps (u : LineUnit) (s : State) :
    (judgeAndDeliver u s).now = s.now ∧ (judgeAndDeliver u s).pending = s.pending ∧
    (judgeAndDeliver u s).freeCount = s.freeCount ∧ (judgeAndDeliver u s).pins = s.pins ∧
    (judgeAndDeliver u s).station = s.station ∧ (judgeAndDeliver u s).config = s.config ∧
    (judgeAndDeliver u s).con.spoken = s.con.spoken ∧ (judgeAndDeliver u s).con.roundOpen = s.con.roundOpen ∧
    (judgeAndDeliver u s).link.accept = s.link.accept ∧ (judgeAndDeliver u s).link.reject = s.link.reject ∧
    (judgeAndDeliver u s).link.receiver = s.link.receiver ∧ (judgeAndDeliver u s).supply.trn = s.supply.trn ∧
    (judgeAndDeliver u s).supply.freqClass = s.supply.freqClass ∧ (judgeAndDeliver u s).seq.occupancy = s.seq.occupancy ∧
    (judgeAndDeliver u s).seq.serviceSelected = s.seq.serviceSelected ∧ (judgeAndDeliver u s).seq.sessionOrigin = s.seq.sessionOrigin ∧
    (judgeAndDeliver u s).seq.tripCounter = s.seq.tripCounter := by
  refine ⟨?_, ?_, ?_, ?_, ?_, ?_, ?_, ?_, ?_, ?_, ?_, ?_, ?_, ?_, ?_, ?_, ?_⟩ <;>
    first | rfl | (simp only [judgeAndDeliver]; (repeat' split) <;> simp [*])

@[simp] theorem settleActivity_keeps (u : LineUnit) (s : State) :
    (settleActivity u s).now = s.now ∧ (settleActivity u s).pending = s.pending ∧
    (settleActivity u s).freeCount = s.freeCount ∧ (settleActivity u s).pins = s.pins ∧
    (settleActivity u s).station = s.station ∧ (settleActivity u s).config = s.config ∧
    (settleActivity u s).con.roundOpen = s.con.roundOpen ∧ (settleActivity u s).link.accept = s.link.accept ∧
    (settleActivity u s).link.reject = s.link.reject ∧ (settleActivity u s).link.receiver = s.link.receiver ∧
    (settleActivity u s).supply.trn = s.supply.trn ∧ (settleActivity u s).supply.freqClass = s.supply.freqClass ∧
    (settleActivity u s).seq.occupancy = s.seq.occupancy ∧ (settleActivity u s).seq.serviceSelected = s.seq.serviceSelected ∧
    (settleActivity u s).seq.sessionOrigin = s.seq.sessionOrigin ∧ (settleActivity u s).seq.tripCounter = s.seq.tripCounter := by
  refine ⟨?_, ?_, ?_, ?_, ?_, ?_, ?_, ?_, ?_, ?_, ?_, ?_, ?_, ?_, ?_, ?_⟩ <;>
    first | rfl | (simp only [settleActivity]; (repeat' split) <;> simp [*])

@[simp] theorem endActivity_keeps (n : Nat) (u : LineUnit) (s : State) :
    (endActivity n u s).now = max s.now (n + Config.baseGap) ∧ (endActivity n u s).pending = s.pending ∧
    (endActivity n u s).freeCount = s.freeCount ∧ (endActivity n u s).pins = s.pins ∧
    (endActivity n u s).station = s.station ∧ (endActivity n u s).config = s.config ∧
    (endActivity n u s).con.roundOpen = s.con.roundOpen ∧ (endActivity n u s).link.accept = s.link.accept ∧
    (endActivity n u s).link.reject = s.link.reject ∧ (endActivity n u s).link.receiver = s.link.receiver ∧
    (endActivity n u s).supply.trn = s.supply.trn ∧ (endActivity n u s).supply.freqClass = s.supply.freqClass := by
  refine ⟨?_, ?_, ?_, ?_, ?_, ?_, ?_, ?_, ?_, ?_, ?_, ?_⟩ <;>
    simp [endActivity, passTo]

/-- The first base gap writes the line unit, the round timer and the clock. -/
theorem openReceiver_eq (u : LineUnit) (s : State) :
    openReceiver u s = { s with
      now := max s.now (u.changedAt + Config.baseGap), line := { u with coming := [], awaitingGap := false }
      con := { s.con with roundTimer := .running (max s.now (u.changedAt + Config.baseGap)) } } := rfl

@[simp] theorem beginActivity_keeps (s : State) :
    (beginActivity s).now = s.now ∧ (beginActivity s).pending = s.pending ∧
    (beginActivity s).freeCount = s.freeCount ∧ (beginActivity s).pins = s.pins ∧
    (beginActivity s).station = s.station ∧ (beginActivity s).config = s.config ∧
    (beginActivity s).adm = s.adm ∧ (beginActivity s).supply = s.supply ∧
    (beginActivity s).roster = s.roster ∧ (beginActivity s).seq.state = s.seq.state ∧
    (beginActivity s).line = s.line.edgeNow s.now := by
  refine ⟨?_, ?_, ?_, ?_, ?_, ?_, ?_, ?_, ?_, ?_, ?_⟩ <;> simp [beginActivity]

@[simp] theorem overtimeRun_keeps (t : Trip) (s : State) :
    (overtimeRun t s).now = s.now ∧ (overtimeRun t s).pending = s.pending ∧
    (overtimeRun t s).freeCount = s.freeCount ∧ (overtimeRun t s).pins = s.pins ∧
    (overtimeRun t s).station = s.station ∧ (overtimeRun t s).config = s.config ∧
    (overtimeRun t s).supply = s.supply ∧ (overtimeRun t s).roster = s.roster ∧
    (overtimeRun t s).line = s.line ∧ (overtimeRun t s).con.spoken = s.con.spoken ∧
    (overtimeRun t s).con.roundOpen = s.con.roundOpen ∧ (overtimeRun t s).link.queue = s.link.queue ∧
    (overtimeRun t s).link.overrun = s.link.overrun ∧ (overtimeRun t s).link.accept = s.link.accept ∧
    (overtimeRun t s).link.reject = s.link.reject ∧ (overtimeRun t s).link.receiver = s.link.receiver ∧
    (overtimeRun t s).seq.duplicate = s.seq.duplicate ∧ (overtimeRun t s).seq.occupancy = s.seq.occupancy ∧
    (overtimeRun t s).seq.serviceSelected = s.seq.serviceSelected ∧ (overtimeRun t s).seq.sessionOrigin = s.seq.sessionOrigin := by
  refine ⟨?_, ?_, ?_, ?_, ?_, ?_, ?_, ?_, ?_, ?_, ?_, ?_, ?_, ?_, ?_, ?_, ?_, ?_, ?_, ?_⟩ <;>
    first | rfl | simp [overtimeRun]

@[simp] theorem overtimeFallback_keeps (s : State) :
    (overtimeFallback s).now = s.now ∧ (overtimeFallback s).pending = s.pending ∧
    (overtimeFallback s).freeCount = s.freeCount ∧ (overtimeFallback s).pins = s.pins ∧
    (overtimeFallback s).station = s.station ∧ (overtimeFallback s).config = s.config ∧
    (overtimeFallback s).supply = s.supply ∧ (overtimeFallback s).roster = s.roster ∧
    (overtimeFallback s).line = s.line ∧ (overtimeFallback s).seq.state = s.seq.state ∧
    (overtimeFallback s).con.spoken = s.con.spoken ∧ (overtimeFallback s).con.roundOpen = s.con.roundOpen ∧
    (overtimeFallback s).con.attempt = s.con.attempt ∧ (overtimeFallback s).link.queue = s.link.queue ∧
    (overtimeFallback s).link.overrun = s.link.overrun ∧ (overtimeFallback s).link.accept = s.link.accept ∧
    (overtimeFallback s).link.reject = s.link.reject ∧ (overtimeFallback s).link.receiver = s.link.receiver ∧
    (overtimeFallback s).seq.duplicate = s.seq.duplicate ∧ (overtimeFallback s).seq.occupancy = s.seq.occupancy ∧
    (overtimeFallback s).seq.serviceSelected = s.seq.serviceSelected ∧ (overtimeFallback s).seq.sessionOrigin = s.seq.sessionOrigin ∧
    (overtimeFallback s).seq.tripCounter = s.seq.tripCounter := by
  refine ⟨?_, ?_, ?_, ?_, ?_, ?_, ?_, ?_, ?_, ?_, ?_, ?_, ?_, ?_, ?_, ?_, ?_, ?_, ?_, ?_, ?_, ?_, ?_⟩ <;>
    first | rfl | simp [overtimeFallback]

@[simp] theorem parkCar_keeps (s : State) :
    (parkCar s).now = s.now ∧ (parkCar s).pending = s.pending ∧
    (parkCar s).freeCount = s.freeCount ∧ (parkCar s).pins = s.pins ∧
    (parkCar s).station = s.station ∧ (parkCar s).config = s.config ∧
    (parkCar s).adm = s.adm ∧ (parkCar s).supply = s.supply ∧
    (parkCar s).roster = s.roster ∧ (parkCar s).line = s.line ∧
    (parkCar s).seq.runp = s.seq.runp ∧ (parkCar s).con.spoken = s.con.spoken ∧
    (parkCar s).con.roundOpen = s.con.roundOpen ∧ (parkCar s).link.queue = s.link.queue ∧
    (parkCar s).link.overrun = s.link.overrun ∧ (parkCar s).link.accept = s.link.accept ∧
    (parkCar s).link.reject = s.link.reject ∧ (parkCar s).link.receiver = s.link.receiver ∧
    (parkCar s).seq.duplicate = s.seq.duplicate ∧ (parkCar s).seq.occupancy = s.seq.occupancy ∧
    (parkCar s).seq.serviceSelected = s.seq.serviceSelected ∧ (parkCar s).seq.sessionOrigin = s.seq.sessionOrigin ∧
    (parkCar s).seq.tripCounter = s.seq.tripCounter := by
  refine ⟨?_, ?_, ?_, ?_, ?_, ?_, ?_, ?_, ?_, ?_, ?_, ?_, ?_, ?_, ?_, ?_, ?_, ?_, ?_, ?_, ?_, ?_, ?_⟩ <;>
    first | rfl | simp [parkCar]

@[simp] theorem publishDemand_keeps (s : State) :
    (publishDemand s).now = s.now ∧ (publishDemand s).pending = s.pending ∧
    (publishDemand s).freeCount = s.freeCount ∧ (publishDemand s).pins = s.pins ∧
    (publishDemand s).station = s.station ∧ (publishDemand s).config = s.config ∧
    (publishDemand s).seq = s.seq ∧ (publishDemand s).supply = s.supply ∧
    (publishDemand s).roster = s.roster ∧ (publishDemand s).line = s.line ∧
    (publishDemand s).con.spoken = s.con.spoken ∧ (publishDemand s).con.roundOpen = s.con.roundOpen ∧
    (publishDemand s).con.attempt = s.con.attempt ∧ (publishDemand s).link.queue = s.link.queue ∧
    (publishDemand s).link.overrun = s.link.overrun ∧ (publishDemand s).link.accept = s.link.accept ∧
    (publishDemand s).link.reject = s.link.reject ∧ (publishDemand s).link.receiver = s.link.receiver := by
  refine ⟨?_, ?_, ?_, ?_, ?_, ?_, ?_, ?_, ?_, ?_, ?_, ?_, ?_, ?_, ?_, ?_, ?_, ?_⟩ <;>
    first | rfl | (simp only [publishDemand]; (repeat' split) <;> simp [*])

@[simp] theorem takeOccupancy_keeps (b : Bool) (s : State) :
    (takeOccupancy b s).now = s.now ∧ (takeOccupancy b s).pending = s.pending ∧
    (takeOccupancy b s).freeCount = s.freeCount ∧ (takeOccupancy b s).pins = s.pins ∧
    (takeOccupancy b s).station = s.station ∧ (takeOccupancy b s).config = s.config ∧
    (takeOccupancy b s).adm = s.adm ∧ (takeOccupancy b s).supply = s.supply ∧
    (takeOccupancy b s).roster = s.roster ∧ (takeOccupancy b s).line = s.line ∧
    (takeOccupancy b s).con = s.con ∧ (takeOccupancy b s).seq.state = s.seq.state ∧
    (takeOccupancy b s).seq.runp = s.seq.runp ∧ (takeOccupancy b s).link.queue = s.link.queue ∧
    (takeOccupancy b s).link.overrun = s.link.overrun ∧ (takeOccupancy b s).link.accept = s.link.accept ∧
    (takeOccupancy b s).link.reject = s.link.reject ∧ (takeOccupancy b s).link.receiver = s.link.receiver ∧
    (takeOccupancy b s).seq.duplicate = s.seq.duplicate ∧ (takeOccupancy b s).seq.serviceSelected = s.seq.serviceSelected ∧
    (takeOccupancy b s).seq.sessionOrigin = s.seq.sessionOrigin ∧ (takeOccupancy b s).seq.tripCounter = s.seq.tripCounter := by
  refine ⟨?_, ?_, ?_, ?_, ?_, ?_, ?_, ?_, ?_, ?_, ?_, ?_, ?_, ?_, ?_, ?_, ?_, ?_, ?_, ?_, ?_, ?_⟩ <;>
    first | rfl | (simp only [takeOccupancy]; (repeat' split) <;> simp [*])

@[simp] theorem reportInFallback_keeps (p : Position) (s : State) :
    (reportInFallback p s).now = s.now ∧ (reportInFallback p s).pending = s.pending ∧
    (reportInFallback p s).freeCount = s.freeCount ∧ (reportInFallback p s).pins = s.pins ∧
    (reportInFallback p s).station = s.station ∧ (reportInFallback p s).config = s.config ∧
    (reportInFallback p s).supply = s.supply ∧ (reportInFallback p s).roster = s.roster ∧
    (reportInFallback p s).line = s.line ∧ (reportInFallback p s).con = s.con ∧
    (reportInFallback p s).seq.state = s.seq.state ∧ (reportInFallback p s).link.queue = s.link.queue ∧
    (reportInFallback p s).link.overrun = s.link.overrun ∧ (reportInFallback p s).link.accept = s.link.accept ∧
    (reportInFallback p s).link.reject = s.link.reject ∧ (reportInFallback p s).link.receiver = s.link.receiver ∧
    (reportInFallback p s).seq.duplicate = s.seq.duplicate ∧ (reportInFallback p s).seq.occupancy = s.seq.occupancy ∧
    (reportInFallback p s).seq.serviceSelected = s.seq.serviceSelected ∧ (reportInFallback p s).seq.sessionOrigin = s.seq.sessionOrigin := by
  refine ⟨?_, ?_, ?_, ?_, ?_, ?_, ?_, ?_, ?_, ?_, ?_, ?_, ?_, ?_, ?_, ?_, ?_, ?_, ?_, ?_⟩ <;>
    first | rfl | (simp only [reportInFallback]; (repeat' split) <;> simp [*])

@[simp] theorem takeReport_keeps (p : Position) (l : Byte) (b : Bool) (s : State) :
    (takeReport p l b s).now = s.now ∧ (takeReport p l b s).pending = s.pending ∧
    (takeReport p l b s).freeCount = s.freeCount ∧ (takeReport p l b s).pins = s.pins ∧
    (takeReport p l b s).station = s.station ∧ (takeReport p l b s).config = s.config ∧
    (takeReport p l b s).supply = s.supply ∧ (takeReport p l b s).roster = s.roster ∧
    (takeReport p l b s).line = s.line ∧ (takeReport p l b s).con.spoken = s.con.spoken ∧
    (takeReport p l b s).con.roundOpen = s.con.roundOpen ∧ (takeReport p l b s).con.attempt = s.con.attempt ∧
    (takeReport p l b s).link.queue = s.link.queue ∧ (takeReport p l b s).link.overrun = s.link.overrun ∧
    (takeReport p l b s).link.accept = s.link.accept ∧ (takeReport p l b s).link.reject = s.link.reject ∧
    (takeReport p l b s).link.receiver = s.link.receiver ∧ (takeReport p l b s).seq.duplicate = s.seq.duplicate ∧
    (takeReport p l b s).seq.serviceSelected = s.seq.serviceSelected ∧ (takeReport p l b s).seq.sessionOrigin = s.seq.sessionOrigin := by
  refine ⟨?_, ?_, ?_, ?_, ?_, ?_, ?_, ?_, ?_, ?_, ?_, ?_, ?_, ?_, ?_, ?_, ?_, ?_, ?_, ?_⟩ <;>
    first | rfl | (simp only [takeReport]; (repeat' split) <;> simp [*])

@[simp] theorem cancelNow_keeps (t : Trip) (s : State) :
    (cancelNow t s).now = s.now ∧ (cancelNow t s).pending = s.pending ∧
    (cancelNow t s).freeCount = s.freeCount ∧ (cancelNow t s).pins = s.pins ∧
    (cancelNow t s).station = s.station ∧ (cancelNow t s).config = s.config ∧
    (cancelNow t s).supply = s.supply ∧ (cancelNow t s).roster = s.roster ∧
    (cancelNow t s).line = s.line ∧ (cancelNow t s).seq.runp = s.seq.runp ∧
    (cancelNow t s).con.spoken = s.con.spoken ∧ (cancelNow t s).con.roundOpen = s.con.roundOpen ∧
    (cancelNow t s).link.queue = s.link.queue ∧ (cancelNow t s).link.overrun = s.link.overrun ∧
    (cancelNow t s).link.accept = s.link.accept ∧ (cancelNow t s).link.reject = s.link.reject ∧
    (cancelNow t s).link.receiver = s.link.receiver ∧ (cancelNow t s).seq.duplicate = s.seq.duplicate ∧
    (cancelNow t s).seq.occupancy = s.seq.occupancy ∧ (cancelNow t s).seq.serviceSelected = s.seq.serviceSelected ∧
    (cancelNow t s).seq.sessionOrigin = s.seq.sessionOrigin ∧ (cancelNow t s).seq.tripCounter = s.seq.tripCounter := by
  refine ⟨?_, ?_, ?_, ?_, ?_, ?_, ?_, ?_, ?_, ?_, ?_, ?_, ?_, ?_, ?_, ?_, ?_, ?_, ?_, ?_, ?_, ?_⟩ <;>
    first | rfl | simp [cancelNow]

@[simp] theorem cancelCompleted_keeps (t : Trip) (s : State) :
    (cancelCompleted t s).now = s.now ∧ (cancelCompleted t s).pending = s.pending ∧
    (cancelCompleted t s).freeCount = s.freeCount ∧ (cancelCompleted t s).pins = s.pins ∧
    (cancelCompleted t s).station = s.station ∧ (cancelCompleted t s).config = s.config ∧
    (cancelCompleted t s).supply = s.supply ∧ (cancelCompleted t s).roster = s.roster ∧
    (cancelCompleted t s).line = s.line ∧
    (cancelCompleted t s).con.spoken = s.con.spoken ∧ (cancelCompleted t s).con.roundOpen = s.con.roundOpen ∧
    (cancelCompleted t s).link.queue = s.link.queue ∧ (cancelCompleted t s).link.overrun = s.link.overrun ∧
    (cancelCompleted t s).link.accept = s.link.accept ∧ (cancelCompleted t s).link.reject = s.link.reject ∧
    (cancelCompleted t s).link.receiver = s.link.receiver ∧ (cancelCompleted t s).seq.duplicate = s.seq.duplicate ∧
    (cancelCompleted t s).seq.occupancy = s.seq.occupancy ∧
    (cancelCompleted t s).seq.serviceSelected = s.seq.serviceSelected ∧
    (cancelCompleted t s).seq.sessionOrigin = s.seq.sessionOrigin ∧
    (cancelCompleted t s).seq.tripCounter = s.seq.tripCounter := by
  refine ⟨?_, ?_, ?_, ?_, ?_, ?_, ?_, ?_, ?_, ?_, ?_, ?_, ?_, ?_, ?_, ?_, ?_, ?_, ?_, ?_, ?_⟩ <;>
    simp only [cancelCompleted] <;> split <;> simp

@[simp] theorem cancelSending_keeps (t : Trip) (s : State) :
    (cancelSending t s).now = s.now ∧ (cancelSending t s).pending = s.pending ∧
    (cancelSending t s).freeCount = s.freeCount ∧ (cancelSending t s).pins = s.pins ∧
    (cancelSending t s).station = s.station ∧ (cancelSending t s).config = s.config ∧
    (cancelSending t s).adm = s.adm ∧ (cancelSending t s).supply = s.supply ∧
    (cancelSending t s).roster = s.roster ∧ (cancelSending t s).line = s.line ∧
    (cancelSending t s).seq.state = s.seq.state ∧ (cancelSending t s).seq.runp = s.seq.runp ∧
    (cancelSending t s).con.spoken = s.con.spoken ∧ (cancelSending t s).con.roundOpen = s.con.roundOpen ∧
    (cancelSending t s).link.queue = s.link.queue ∧ (cancelSending t s).link.overrun = s.link.overrun ∧
    (cancelSending t s).link.accept = s.link.accept ∧ (cancelSending t s).link.reject = s.link.reject ∧
    (cancelSending t s).link.receiver = s.link.receiver ∧ (cancelSending t s).seq.duplicate = s.seq.duplicate ∧
    (cancelSending t s).seq.occupancy = s.seq.occupancy ∧ (cancelSending t s).seq.serviceSelected = s.seq.serviceSelected ∧
    (cancelSending t s).seq.sessionOrigin = s.seq.sessionOrigin ∧ (cancelSending t s).seq.tripCounter = s.seq.tripCounter := by
  refine ⟨?_, ?_, ?_, ?_, ?_, ?_, ?_, ?_, ?_, ?_, ?_, ?_, ?_, ?_, ?_, ?_, ?_, ?_, ?_, ?_, ?_, ?_, ?_, ?_⟩ <;>
    first | rfl | simp [cancelSending]

@[simp] theorem stopAtEnd_keeps (p : Position) (l : Byte) (s : State) :
    (stopAtEnd p l s).now = s.now ∧ (stopAtEnd p l s).pending = s.pending ∧
    (stopAtEnd p l s).freeCount = s.freeCount ∧ (stopAtEnd p l s).pins = s.pins ∧
    (stopAtEnd p l s).station = s.station ∧ (stopAtEnd p l s).config = s.config ∧
    (stopAtEnd p l s).adm = s.adm ∧ (stopAtEnd p l s).supply = s.supply ∧
    (stopAtEnd p l s).roster = s.roster ∧ (stopAtEnd p l s).line = s.line ∧
    (stopAtEnd p l s).link = s.link ∧ (stopAtEnd p l s).seq.state = s.seq.state ∧
    (stopAtEnd p l s).seq.trip = s.seq.trip ∧ (stopAtEnd p l s).con.spoken = s.con.spoken ∧
    (stopAtEnd p l s).con.roundOpen = s.con.roundOpen ∧ (stopAtEnd p l s).con.attempt = s.con.attempt ∧
    (stopAtEnd p l s).seq.duplicate = s.seq.duplicate ∧ (stopAtEnd p l s).seq.occupancy = s.seq.occupancy ∧
    (stopAtEnd p l s).seq.serviceSelected = s.seq.serviceSelected ∧ (stopAtEnd p l s).seq.sessionOrigin = s.seq.sessionOrigin ∧
    (stopAtEnd p l s).seq.tripCounter = s.seq.tripCounter := by
  refine ⟨?_, ?_, ?_, ?_, ?_, ?_, ?_, ?_, ?_, ?_, ?_, ?_, ?_, ?_, ?_, ?_, ?_, ?_, ?_, ?_, ?_⟩ <;>
    first | rfl | simp [stopAtEnd]

@[simp] theorem setEnding_keeps (t : Trip) (s : State) :
    (setEnding t s).now = s.now ∧ (setEnding t s).pending = s.pending ∧
    (setEnding t s).freeCount = s.freeCount ∧ (setEnding t s).pins = s.pins ∧
    (setEnding t s).station = s.station ∧ (setEnding t s).config = s.config ∧
    (setEnding t s).adm = s.adm ∧ (setEnding t s).supply = s.supply ∧
    (setEnding t s).roster = s.roster ∧ (setEnding t s).line = s.line ∧
    (setEnding t s).con = s.con ∧ (setEnding t s).seq.state = s.seq.state ∧
    (setEnding t s).seq.runp = s.seq.runp ∧ (setEnding t s).link.queue = s.link.queue ∧
    (setEnding t s).link.overrun = s.link.overrun ∧ (setEnding t s).link.accept = s.link.accept ∧
    (setEnding t s).link.reject = s.link.reject ∧ (setEnding t s).link.receiver = s.link.receiver ∧
    (setEnding t s).seq.duplicate = s.seq.duplicate ∧ (setEnding t s).seq.occupancy = s.seq.occupancy ∧
    (setEnding t s).seq.serviceSelected = s.seq.serviceSelected ∧ (setEnding t s).seq.sessionOrigin = s.seq.sessionOrigin ∧
    (setEnding t s).seq.tripCounter = s.seq.tripCounter := by
  refine ⟨?_, ?_, ?_, ?_, ?_, ?_, ?_, ?_, ?_, ?_, ?_, ?_, ?_, ?_, ?_, ?_, ?_, ?_, ?_, ?_, ?_, ?_, ?_⟩ <;> rfl

@[simp] theorem endRun_keeps (t : Trip) (p : Position) (s : State) :
    (endRun t p s).now = s.now ∧ (endRun t p s).pending = s.pending ∧
    (endRun t p s).freeCount = s.freeCount ∧ (endRun t p s).pins = s.pins ∧
    (endRun t p s).station = s.station ∧ (endRun t p s).config = s.config ∧
    (endRun t p s).adm = s.adm ∧ (endRun t p s).supply = s.supply ∧
    (endRun t p s).roster = s.roster ∧ (endRun t p s).line = s.line ∧
    (endRun t p s).seq.runp = s.seq.runp ∧ (endRun t p s).con.spoken = s.con.spoken ∧
    (endRun t p s).con.roundOpen = s.con.roundOpen ∧ (endRun t p s).link.queue = s.link.queue ∧
    (endRun t p s).link.overrun = s.link.overrun ∧ (endRun t p s).link.accept = s.link.accept ∧
    (endRun t p s).link.reject = s.link.reject ∧ (endRun t p s).link.receiver = s.link.receiver ∧
    (endRun t p s).seq.duplicate = s.seq.duplicate ∧ (endRun t p s).seq.occupancy = s.seq.occupancy ∧
    (endRun t p s).seq.serviceSelected = s.seq.serviceSelected ∧ (endRun t p s).seq.sessionOrigin = s.seq.sessionOrigin ∧
    (endRun t p s).seq.tripCounter = s.seq.tripCounter := by
  refine ⟨?_, ?_, ?_, ?_, ?_, ?_, ?_, ?_, ?_, ?_, ?_, ?_, ?_, ?_, ?_, ?_, ?_, ?_, ?_, ?_, ?_, ?_, ?_⟩ <;>
    first | rfl | (simp only [endRun]; (repeat' split) <;> simp [*])

@[simp] theorem endShedRun_keeps (t : Trip) (p : Position) (s : State) :
    (endShedRun t p s).now = s.now ∧ (endShedRun t p s).pending = s.pending ∧
    (endShedRun t p s).freeCount = s.freeCount ∧ (endShedRun t p s).pins = s.pins ∧
    (endShedRun t p s).station = s.station ∧ (endShedRun t p s).config = s.config ∧
    (endShedRun t p s).adm = s.adm ∧ (endShedRun t p s).supply = s.supply ∧
    (endShedRun t p s).roster = s.roster ∧ (endShedRun t p s).line = s.line ∧
    (endShedRun t p s).seq.runp = s.seq.runp ∧ (endShedRun t p s).con.spoken = s.con.spoken ∧
    (endShedRun t p s).con.roundOpen = s.con.roundOpen ∧ (endShedRun t p s).link.queue = s.link.queue ∧
    (endShedRun t p s).link.overrun = s.link.overrun ∧ (endShedRun t p s).link.accept = s.link.accept ∧
    (endShedRun t p s).link.reject = s.link.reject ∧ (endShedRun t p s).link.receiver = s.link.receiver ∧
    (endShedRun t p s).seq.duplicate = s.seq.duplicate ∧ (endShedRun t p s).seq.occupancy = s.seq.occupancy ∧
    (endShedRun t p s).seq.serviceSelected = s.seq.serviceSelected ∧ (endShedRun t p s).seq.sessionOrigin = s.seq.sessionOrigin ∧
    (endShedRun t p s).seq.tripCounter = s.seq.tripCounter := by
  refine ⟨?_, ?_, ?_, ?_, ?_, ?_, ?_, ?_, ?_, ?_, ?_, ?_, ?_, ?_, ?_, ?_, ?_, ?_, ?_, ?_, ?_, ?_, ?_⟩ <;>
    first | rfl | (simp only [endShedRun]; (repeat' split) <;> simp [*])

@[simp] theorem endRunInFallback_keeps (p : Position) (s : State) :
    (endRunInFallback p s).now = s.now ∧ (endRunInFallback p s).pending = s.pending ∧
    (endRunInFallback p s).freeCount = s.freeCount ∧ (endRunInFallback p s).pins = s.pins ∧
    (endRunInFallback p s).station = s.station ∧ (endRunInFallback p s).config = s.config ∧
    (endRunInFallback p s).supply = s.supply ∧ (endRunInFallback p s).roster = s.roster ∧
    (endRunInFallback p s).line = s.line ∧ (endRunInFallback p s).con = s.con ∧
    (endRunInFallback p s).seq.state = s.seq.state ∧ (endRunInFallback p s).link.queue = s.link.queue ∧
    (endRunInFallback p s).link.overrun = s.link.overrun ∧ (endRunInFallback p s).link.accept = s.link.accept ∧
    (endRunInFallback p s).link.reject = s.link.reject ∧ (endRunInFallback p s).link.receiver = s.link.receiver ∧
    (endRunInFallback p s).seq.duplicate = s.seq.duplicate ∧ (endRunInFallback p s).seq.occupancy = s.seq.occupancy ∧
    (endRunInFallback p s).seq.serviceSelected = s.seq.serviceSelected ∧ (endRunInFallback p s).seq.sessionOrigin = s.seq.sessionOrigin ∧
    (endRunInFallback p s).seq.tripCounter = s.seq.tripCounter := by
  refine ⟨?_, ?_, ?_, ?_, ?_, ?_, ?_, ?_, ?_, ?_, ?_, ?_, ?_, ?_, ?_, ?_, ?_, ?_, ?_, ?_, ?_⟩ <;>
    first | rfl | simp [endRunInFallback]

@[simp] theorem takeTripEnd_keeps (t : Trip) (p : Position) (l : Byte) (s : State) :
    (takeTripEnd t p l s).now = s.now ∧ (takeTripEnd t p l s).pending = s.pending ∧
    (takeTripEnd t p l s).freeCount = s.freeCount ∧ (takeTripEnd t p l s).pins = s.pins ∧
    (takeTripEnd t p l s).station = s.station ∧ (takeTripEnd t p l s).config = s.config ∧
    (takeTripEnd t p l s).supply = s.supply ∧ (takeTripEnd t p l s).roster = s.roster ∧
    (takeTripEnd t p l s).line = s.line ∧ (takeTripEnd t p l s).con.spoken = s.con.spoken ∧
    (takeTripEnd t p l s).con.roundOpen = s.con.roundOpen ∧ (takeTripEnd t p l s).link.queue = s.link.queue ∧
    (takeTripEnd t p l s).link.overrun = s.link.overrun ∧ (takeTripEnd t p l s).link.accept = s.link.accept ∧
    (takeTripEnd t p l s).link.reject = s.link.reject ∧ (takeTripEnd t p l s).link.receiver = s.link.receiver ∧
    (takeTripEnd t p l s).seq.duplicate = s.seq.duplicate ∧ (takeTripEnd t p l s).seq.occupancy = s.seq.occupancy ∧
    (takeTripEnd t p l s).seq.serviceSelected = s.seq.serviceSelected ∧ (takeTripEnd t p l s).seq.sessionOrigin = s.seq.sessionOrigin ∧
    (takeTripEnd t p l s).seq.tripCounter = s.seq.tripCounter := by
  refine ⟨?_, ?_, ?_, ?_, ?_, ?_, ?_, ?_, ?_, ?_, ?_, ?_, ?_, ?_, ?_, ?_, ?_, ?_, ?_, ?_, ?_⟩ <;>
    first | rfl | (simp only [takeTripEnd]; (repeat' split) <;> simp [*])

@[simp] theorem wakeCar_keeps (s : State) :
    (wakeCar s).now = s.now ∧ (wakeCar s).pending = s.pending ∧
    (wakeCar s).freeCount = s.freeCount ∧ (wakeCar s).pins = s.pins ∧
    (wakeCar s).station = s.station ∧ (wakeCar s).config = s.config ∧
    (wakeCar s).supply = s.supply ∧ (wakeCar s).roster = s.roster ∧
    (wakeCar s).line = s.line ∧ (wakeCar s).seq.runp = s.seq.runp ∧
    (wakeCar s).con.spoken = s.con.spoken ∧ (wakeCar s).con.roundOpen = s.con.roundOpen ∧
    (wakeCar s).con.attempt = s.con.attempt ∧ (wakeCar s).link.queue = s.link.queue ∧
    (wakeCar s).link.overrun = s.link.overrun ∧ (wakeCar s).link.accept = s.link.accept ∧
    (wakeCar s).link.reject = s.link.reject ∧ (wakeCar s).link.receiver = s.link.receiver ∧
    (wakeCar s).seq.duplicate = s.seq.duplicate ∧ (wakeCar s).seq.occupancy = s.seq.occupancy ∧
    (wakeCar s).seq.serviceSelected = s.seq.serviceSelected ∧ (wakeCar s).seq.sessionOrigin = s.seq.sessionOrigin := by
  refine ⟨?_, ?_, ?_, ?_, ?_, ?_, ?_, ?_, ?_, ?_, ?_, ?_, ?_, ?_, ?_, ?_, ?_, ?_, ?_, ?_, ?_, ?_⟩ <;>
    first | rfl | simp [wakeCar]

@[simp] theorem setSelected_keeps (b : Bool) (s : State) :
    (setSelected b s).now = s.now ∧ (setSelected b s).pending = s.pending ∧
    (setSelected b s).freeCount = s.freeCount ∧ (setSelected b s).pins = s.pins ∧
    (setSelected b s).station = s.station ∧ (setSelected b s).config = s.config ∧
    (setSelected b s).adm = s.adm ∧ (setSelected b s).supply = s.supply ∧
    (setSelected b s).roster = s.roster ∧ (setSelected b s).line = s.line ∧
    (setSelected b s).link = s.link ∧ (setSelected b s).seq.state = s.seq.state ∧
    (setSelected b s).seq.runp = s.seq.runp ∧ (setSelected b s).seq.trip = s.seq.trip ∧
    (setSelected b s).con.spoken = s.con.spoken ∧ (setSelected b s).con.roundOpen = s.con.roundOpen ∧
    (setSelected b s).con.attempt = s.con.attempt ∧ (setSelected b s).seq.duplicate = s.seq.duplicate ∧
    (setSelected b s).seq.occupancy = s.seq.occupancy ∧ (setSelected b s).seq.sessionOrigin = s.seq.sessionOrigin ∧
    (setSelected b s).seq.tripCounter = s.seq.tripCounter := by
  refine ⟨?_, ?_, ?_, ?_, ?_, ?_, ?_, ?_, ?_, ?_, ?_, ?_, ?_, ?_, ?_, ?_, ?_, ?_, ?_, ?_, ?_⟩ <;>
    first | rfl | (simp only [setSelected]; (repeat' split) <;> simp [*])

end Sys2Proof.Machine
end

