-- ==== Sys2Proof/Laws/Receiver.lean ====
section
/-!
SUPPORT. What reading the line does to the line unit, one lemma for each operation: the level it leaves, the fields it keeps, and what
it comes to while no message is on its way out.
-/

namespace Sys2Proof.Machine

/-! ### The wired-AND and the own drive -/

@[simp] theorem wiredAnd_recessive (l : Level) : wiredAnd .recessive l = l := by cases l <;> rfl

@[simp] theorem wiredAnd_dominant (l : Level) : wiredAnd .dominant l = .dominant := rfl

theorem wiredAnd_comm (a b : Level) : wiredAnd a b = wiredAnd b a := by cases a <;> cases b <;> rfl

theorem LineUnit.driven_idle {u : LineUnit} (h : u.transmitter = none) (t : Nat) : u.driven t = .recessive := by
  simp [LineUnit.driven, h]

/-- With nothing of the own on the line it shows the others alone (R79). -/
theorem LineUnit.lineAt_idle {u : LineUnit} (h : u.transmitter = none) (t : Nat) : u.lineAt t = u.others := by
  simp [LineUnit.lineAt, LineUnit.driven_idle h]

/-! ### Sampling (R81) -/

/-- What sampling keeps: all but the octet in hand, the octets, their count, the FRAME mark and the instant that is in time. -/
structure LineUnit.SameButOctets (u v : LineUnit) : Prop where
  others : v.others = u.others
  follows : v.follows = u.follows
  coming : v.coming = u.coming
  level : v.level = u.level
  readTo : v.readTo = u.readTo
  changedAt : v.changedAt = u.changedAt
  awaitingGap : v.awaitingGap = u.awaitingGap
  active : v.active = u.active
  startedAt : v.startedAt = u.startedAt
  longMark : v.longMark = u.longMark
  endReference : v.endReference = u.endReference
  longTimer : v.longTimer = u.longTimer
  transmitter : v.transmitter = u.transmitter
  lastError : v.lastError = u.lastError

theorem LineUnit.SameButOctets.rfl {u : LineUnit} : u.SameButOctets u := by constructor <;> rfl

theorem LineUnit.SameButOctets.trans {u v w : LineUnit} (h : u.SameButOctets v) (g : v.SameButOctets w) :
    u.SameButOctets w := by
  constructor <;> simp [h.others, h.follows, h.coming, h.level, h.readTo, h.changedAt, h.awaitingGap, h.active, h.startedAt,
    h.longMark, h.endReference, h.longTimer, h.transmitter, h.lastError, g.others, g.follows, g.coming, g.level, g.readTo,
    g.changedAt, g.awaitingGap, g.active, g.startedAt, g.longMark, g.endReference, g.longTimer, g.transmitter,
    g.lastError]

theorem LineUnit.closeOctet_same (u : LineUnit) (o : OctetInHand) : u.SameButOctets (u.closeOctet o) := by
  constructor <;> rfl

theorem LineUnit.sampleBit_same (t : Nat) (u : LineUnit) : u.SameButOctets (u.sampleBit t) := by
  unfold LineUnit.sampleBit
  repeat' split
  all_goals first | exact u.closeOctet_same _ | (constructor <;> rfl)

theorem LineUnit.sampleTo_same (t : Nat) (u : LineUnit) : u.SameButOctets (u.sampleTo t) := by
  unfold LineUnit.sampleTo
  generalize List.range 9 = l
  induction l generalizing u with
  | nil => exact .rfl
  | cons _ _ ih => exact (u.sampleBit_same t).trans (ih _)

/-- No octet in hand: nothing to sample. -/
theorem LineUnit.sampleTo_none {u : LineUnit} (h : u.inHand = none) (t : Nat) : u.sampleTo t = u := by
  have e : u.sampleBit t = u := by simp [LineUnit.sampleBit, h]
  unfold LineUnit.sampleTo
  generalize List.range 9 = l
  induction l with
  | nil => rfl
  | cons _ _ ih => simpa [e] using ih

/-- The next bit's middle has not come: nothing to sample. -/
theorem LineUnit.sampleTo_early {u : LineUnit} {o : OctetInHand} (h : u.inHand = some o) {t : Nat}
    (ht : t ≤ midBit o.start (o.bits.length + 1)) : u.sampleTo t = u := by
  have e : u.sampleBit t = u := by simp [LineUnit.sampleBit, h, Nat.not_lt.mpr ht]
  unfold LineUnit.sampleTo
  generalize List.range 9 = l
  induction l with
  | nil => rfl
  | cons _ _ ih => simpa [e] using ih

/-! ### A change of level (R81 to R83) -/

/-- What reading the line keeps, however it changes: the inputs, the first base gap, the message on its way out and the last
error. -/
structure LineUnit.SameDrive (u v : LineUnit) : Prop where
  others : v.others = u.others
  follows : v.follows = u.follows
  coming : v.coming = u.coming
  awaitingGap : v.awaitingGap = u.awaitingGap
  transmitter : v.transmitter = u.transmitter
  lastError : v.lastError = u.lastError

theorem LineUnit.SameDrive.rfl {u : LineUnit} : u.SameDrive u := by constructor <;> rfl

theorem LineUnit.SameDrive.trans {u v w : LineUnit} (h : u.SameDrive v) (g : v.SameDrive w) : u.SameDrive w := by
  constructor <;> simp [h.others, h.follows, h.coming, h.awaitingGap, h.transmitter, h.lastError, g.others, g.follows,
    g.coming, g.awaitingGap, g.transmitter, g.lastError]

theorem LineUnit.SameButOctets.sameDrive {u v : LineUnit} (h : u.SameButOctets v) : u.SameDrive v :=
  ⟨h.others, h.follows, h.coming, h.awaitingGap, h.transmitter, h.lastError⟩

theorem LineUnit.dominantEdge_drive (t : Nat) (u : LineUnit) : u.SameDrive (u.dominantEdge t) := by
  unfold LineUnit.dominantEdge
  dsimp only
  repeat' split
  all_goals constructor <;> rfl

theorem LineUnit.recessiveEdge_drive (t : Nat) (u : LineUnit) : u.SameDrive (u.recessiveEdge t) := by
  constructor <;> rfl

theorem LineUnit.dominantEdge_level (t : Nat) (u : LineUnit) :
    (u.dominantEdge t).level = .dominant ∧ (u.dominantEdge t).changedAt = t ∧
      (u.dominantEdge t).longTimer = .running t := by
  unfold LineUnit.dominantEdge
  dsimp only
  repeat' split
  all_goals exact ⟨rfl, rfl, rfl⟩

/-- An activity goes on through a dominant edge, and one begins with it on a quiet line after the first base gap (R81, R98). -/
theorem LineUnit.dominantEdge_active (t : Nat) (u : LineUnit) :
    (u.dominantEdge t).active = (u.active || !u.awaitingGap) := by
  unfold LineUnit.dominantEdge
  dsimp only
  repeat' split
  all_goals simp_all

theorem LineUnit.setLevel_same (t : Nat) (u : LineUnit) : u.setLevel t u.level = u := by simp [LineUnit.setLevel]

theorem LineUnit.setLevel_drive (t : Nat) (l : Level) (u : LineUnit) : u.SameDrive (u.setLevel t l) := by
  unfold LineUnit.setLevel
  split
  · exact .rfl
  · split
    · exact (u.sampleTo_same t).sameDrive.trans (LineUnit.dominantEdge_drive ..)
    · exact (u.sampleTo_same t).sameDrive.trans (LineUnit.recessiveEdge_drive ..)

@[simp] theorem LineUnit.setLevel_level (t : Nat) (l : Level) (u : LineUnit) : (u.setLevel t l).level = l := by
  unfold LineUnit.setLevel
  split
  · rename_i h; exact h.symm
  · split
    · exact (LineUnit.dominantEdge_level ..).1
    · rfl

/-- An activity never ends with a change of the line (R82). -/
theorem LineUnit.setLevel_active (t : Nat) (l : Level) (u : LineUnit) (h : u.active = true) :
    (u.setLevel t l).active = true := by
  unfold LineUnit.setLevel
  split
  · exact h
  · split
    · simp [LineUnit.dominantEdge_active, (u.sampleTo_same t).active, h]
    · exact (u.sampleTo_same t).active.trans h

/-! ### Reading on -/

theorem LineUnit.settle_drive (t : Nat) (u : LineUnit) : u.SameDrive (u.settle t) := by
  have h := u.setLevel_drive t (u.lineAt t)
  exact ⟨h.others, h.follows, h.coming, h.awaitingGap, h.transmitter, h.lastError⟩

@[simp] theorem LineUnit.settle_level (t : Nat) (u : LineUnit) : (u.settle t).level = u.lineAt t :=
  LineUnit.setLevel_level ..

theorem LineUnit.settle_active (t : Nat) (u : LineUnit) (h : u.active = true) : (u.settle t).active = true :=
  LineUnit.setLevel_active t _ u h

/-- What a fold of readings keeps. -/
theorem LineUnit.foldl_settle (l : List Nat) (u : LineUnit) :
    u.SameDrive (l.foldl (fun u e => u.settle e) u) ∧
      (u.active = true → (l.foldl (fun u e => u.settle e) u).active = true) := by
  induction l generalizing u with
  | nil => exact ⟨.rfl, id⟩
  | cons e l ih =>
    exact ⟨(u.settle_drive e).trans (ih _).1, fun h => (ih _).2 (u.settle_active e h)⟩

theorem LineUnit.driveTo_drive (t : Nat) (u : LineUnit) : u.SameDrive (u.driveTo t) := by
  have h := (LineUnit.foldl_settle (u.bitEdges.filter fun e => decide (u.readTo < e ∧ e ≤ t)) u).1
  exact ⟨h.others, h.follows, h.coming, h.awaitingGap, h.transmitter, h.lastError⟩

theorem LineUnit.driveTo_active (t : Nat) (u : LineUnit) (h : u.active = true) : (u.driveTo t).active = true :=
  (LineUnit.foldl_settle (u.bitEdges.filter fun e => decide (u.readTo < e ∧ e ≤ t)) u).2 h

/-- With nothing of the own on the line there is nothing to drive. -/
theorem LineUnit.driveTo_idle {u : LineUnit} (h : u.transmitter = none) (t : Nat) :
    u.driveTo t = { u with readTo := max u.readTo t } := by
  simp [LineUnit.driveTo, LineUnit.bitEdges, h]

/-- Everything a change of the others' drive can do to the drive itself. -/
theorem LineUnit.othersChange_drive (u : LineUnit) (c : LineChange) :
    (u.othersChange c).others = c.level ∧ (u.othersChange c).follows = u.follows ∧
      (u.othersChange c).awaitingGap = u.awaitingGap ∧ (u.othersChange c).transmitter = u.transmitter ∧
      (u.othersChange c).lastError = u.lastError := by
  have h := u.driveTo_drive (max (u.instant c) u.readTo - 1)
  have g := LineUnit.settle_drive (max (u.instant c) u.readTo)
    { u.driveTo (max (u.instant c) u.readTo - 1) with others := c.level }
  exact ⟨g.others, g.follows.trans h.follows, g.awaitingGap.trans h.awaitingGap, g.transmitter.trans h.transmitter,
    g.lastError.trans h.lastError⟩

theorem LineUnit.othersChange_active (u : LineUnit) (c : LineChange) (h : u.active = true) :
    (u.othersChange c).active = true :=
  LineUnit.settle_active _ _ (u.driveTo_active _ h)

/-! ### Following what comes -/

@[simp] theorem LineUnit.follow_nil (stop : LineUnit → LineChange → Bool) (u : LineUnit) :
    u.follow stop [] = { u with coming := [] } := rfl

/-- The next change is followed, unless the following stops before it. -/
theorem LineUnit.follow_cons (stop : LineUnit → LineChange → Bool) (c : LineChange) (rest : List LineChange) (u : LineUnit) :
    u.follow stop (c :: rest) =
      if stop u c then { u with coming := c :: rest } else (u.othersChange c).follow stop rest := rfl

/-- Following the line changes neither the message on its way out nor what the receiver waits for. -/
theorem LineUnit.follow_keeps (stop : LineUnit → LineChange → Bool) (changes : List LineChange) (u : LineUnit) :
    (u.follow stop changes).follows = u.follows ∧ (u.follow stop changes).awaitingGap = u.awaitingGap ∧
      (u.follow stop changes).transmitter = u.transmitter ∧ (u.follow stop changes).lastError = u.lastError := by
  induction changes generalizing u with
  | nil => simp
  | cons c rest ih =>
    obtain ⟨-, h1, h2, h3, h4⟩ := u.othersChange_drive c
    rw [LineUnit.follow_cons]
    split
    · simp
    · simpa [h1, h2, h3, h4] using ih (u.othersChange c)

theorem LineUnit.follow_active (stop : LineUnit → LineChange → Bool) (changes : List LineChange) (u : LineUnit)
    (h : u.active = true) : (u.follow stop changes).active = true := by
  induction changes generalizing u with
  | nil => exact h
  | cons c rest ih =>
    rw [LineUnit.follow_cons]
    split
    · exact h
    · exact ih _ (u.othersChange_active c h)

/-! ### The base gap (R82, R98) -/

theorem LineUnit.gapPassed_iff (t : Nat) (u : LineUnit) :
    u.gapPassed t = true ↔ u.level = .recessive ∧ u.changedAt + Config.baseGap < t := by
  simp [LineUnit.gapPassed]

/-- No base gap passes on a dominant line (R82, R83). -/
theorem LineUnit.gapPassed_dominant {u : LineUnit} (h : u.level = .dominant) (t : Nat) : u.gapPassed t = false := by
  simp [LineUnit.gapPassed, h]

/-- With nothing of the own on the line a base gap lies before a change as the line stood before it. -/
theorem LineUnit.gapBefore_idle {u : LineUnit} (h : u.transmitter = none) (c : LineChange) :
    u.gapBefore c = u.gapPassed (u.instant c) := by
  simp [LineUnit.gapBefore, LineUnit.driveTo_idle h, LineUnit.gapPassed]

/-- Reading on keeps what following and driving keep. -/
theorem LineUnit.readOn_keeps (t : Nat) (u : LineUnit) :
    (u.readOn t).follows = u.follows ∧ (u.readOn t).awaitingGap = u.awaitingGap ∧
      (u.readOn t).transmitter = u.transmitter ∧ (u.readOn t).lastError = u.lastError := by
  obtain ⟨f1, f2, f3, f4⟩ := u.follow_keeps (fun u c => u.gapBefore c || decide (t < u.instant c)) u.coming
  have d := (u.follow (fun u c => u.gapBefore c || decide (t < u.instant c)) u.coming).driveTo_drive (t - 1)
  exact ⟨d.follows.trans f1, d.awaitingGap.trans f2, d.transmitter.trans f3, d.lastError.trans f4⟩

theorem LineUnit.readOn_active (t : Nat) (u : LineUnit) (h : u.active = true) : (u.readOn t).active = true :=
  LineUnit.driveTo_active _ _ (u.follow_active _ _ h)

/-- With nothing told and nothing of the own on the line, reading on only notes how far it went. -/
theorem LineUnit.readOn_idle {u : LineUnit} (h : u.transmitter = none) (hc : u.coming = []) (t : Nat) :
    u.readOn t = { u with readTo := max u.readTo (t - 1) } := by
  cases u
  simp only at h hc
  subst h hc
  rw [LineUnit.readOn, LineUnit.follow_nil, LineUnit.driveTo_idle rfl]

/-! ### The release (R79, R85, R86) -/

/-- Reading up to a release keeps what reading on and driving keep. -/
theorem LineUnit.readToRelease_keeps (t : Nat) (u : LineUnit) :
    (u.readToRelease t).follows = u.follows ∧ (u.readToRelease t).awaitingGap = u.awaitingGap ∧
      (u.readToRelease t).transmitter = u.transmitter ∧ (u.readToRelease t).lastError = u.lastError := by
  unfold LineUnit.readToRelease
  split
  · exact u.readOn_keeps t
  · have d := u.driveTo_drive (t - 1)
    exact ⟨d.follows, d.awaitingGap, d.transmitter, d.lastError⟩

/-- A released line is the others' (R85, R86). -/
@[simp] theorem LineUnit.release_transmitter (t : Nat) (u : LineUnit) : (u.release t).transmitter = none := by
  unfold LineUnit.release
  split
  · assumption
  · exact (LineUnit.settle_drive ..).transmitter

theorem LineUnit.release_idle {u : LineUnit} (h : u.transmitter = none) (t : Nat) : u.release t = u := by
  simp [LineUnit.release, h]

/-- Everything a release can do to the drive: the line is left as the others hold it there, and follows the next message. -/
theorem LineUnit.release_keeps (t : Nat) (u : LineUnit) :
    (u.release t).awaitingGap = u.awaitingGap ∧ (u.release t).lastError = u.lastError ∧
      (u.transmitter ≠ none → (u.release t).follows = true ∧ (u.release t).level = (u.readToRelease t).others ∧
        (u.release t).others = (u.readToRelease t).others ∧ (u.release t).coming = (u.readToRelease t).coming) := by
  unfold LineUnit.release
  split
  · exact ⟨rfl, rfl, fun h => absurd (by assumption) h⟩
  · obtain ⟨-, k1, -, k2⟩ := u.readToRelease_keeps t
    have g := LineUnit.settle_drive t { u.readToRelease t with transmitter := none, follows := true }
    refine ⟨g.awaitingGap.trans k1, g.lastError.trans k2, fun _ => ⟨g.follows, ?_, g.others, g.coming⟩⟩
    rw [LineUnit.settle_level]
    cases h : (u.readToRelease t).others <;> simp [LineUnit.lineAt, LineUnit.driven, wiredAnd, h]

/-! ### A reset (R98, R79) -/

/-- Everything a reset of the line unit leaves: what the others hold the line at by then, as told, and nothing read. -/
theorem LineUnit.reset_quiet (now : Nat) (u : LineUnit) :
    (u.reset now).level = (u.reset now).others ∧ (u.reset now).active = false ∧ (u.reset now).awaitingGap = true ∧
      (u.reset now).transmitter = none ∧ (u.reset now).longTimer = .stopped ∧ (u.reset now).endReference = none ∧
      (u.reset now).lastError = .none ∧ (u.reset now).octets = [] ∧ (u.reset now).changedAt = now ∧
      (u.reset now).startedAt = now ∧ (u.reset now).readTo = now :=
  ⟨rfl, rfl, rfl, rfl, rfl, rfl, rfl, rfl, rfl, rfl, rfl⟩

/-- With nothing told, the line at a reset is what the others hold it at. -/
theorem LineUnit.reset_others (now : Nat) (u : LineUnit) (h : u.coming = []) :
    (u.reset now).others = u.others ∧ (u.reset now).coming = [] := by
  simp [LineUnit.reset, LineUnit.othersAt, h]

/-! ### The end of an activity (R82) -/

@[simp] theorem LineUnit.quiet_active (u : LineUnit) : u.quiet.active = false := rfl
@[simp] theorem LineUnit.quiet_level (u : LineUnit) : u.quiet.level = u.level := rfl
@[simp] theorem LineUnit.quiet_others (u : LineUnit) : u.quiet.others = u.others := rfl
@[simp] theorem LineUnit.quiet_transmitter (u : LineUnit) : u.quiet.transmitter = u.transmitter := rfl
@[simp] theorem LineUnit.quiet_lastError (u : LineUnit) : u.quiet.lastError = u.lastError := rfl
@[simp] theorem LineUnit.quiet_octets (u : LineUnit) : u.quiet.octets = [] := rfl
@[simp] theorem LineUnit.quiet_coming (u : LineUnit) : u.quiet.coming = [] := rfl
@[simp] theorem LineUnit.quiet_endReference (u : LineUnit) : u.quiet.endReference = u.endReference := rfl

/-- An end is recognised only on a recessive line, at the reference of its last change (R82). -/
theorem LineUnit.recognised_cases {u v : LineUnit} {changes : List LineChange} {reference : Nat}
    (h : u.recognised changes = some (reference, v)) :
    (u.followToEnd changes).level = .recessive ∧ (u.followToEnd changes).endReference = some reference ∧
      v = (u.followToEnd changes).sampleTo (reference + Config.baseGap) := by
  simp only [LineUnit.recognised] at h
  split at h
  · rename_i r h1 h2
    obtain ⟨rfl, rfl⟩ : r = reference ∧ _ = v := by simpa using h
    exact ⟨h1, h2, rfl⟩
  · cases h

/-- The line unit at a recognised end still holds the message on its way out, and the line reads recessive. -/
theorem LineUnit.recognised_keeps {u v : LineUnit} {changes : List LineChange} {reference : Nat}
    (h : u.recognised changes = some (reference, v)) :
    v.level = .recessive ∧ v.transmitter = u.transmitter ∧ v.awaitingGap = u.awaitingGap ∧
      v.lastError = u.lastError := by
  obtain ⟨hl, -, rfl⟩ := LineUnit.recognised_cases h
  have s := (u.followToEnd changes).sampleTo_same (reference + Config.baseGap)
  obtain ⟨-, f2, f3, f4⟩ := u.follow_keeps LineUnit.gapBefore (u.coming ++ changes)
  have d := (u.follow LineUnit.gapBefore (u.coming ++ changes)).driveTo_drive ((u.transmitter.map Sending.endsAt).getD 0)
  exact ⟨s.level.trans hl, s.transmitter.trans (d.transmitter.trans f3),
    s.awaitingGap.trans (d.awaitingGap.trans f2), s.lastError.trans (d.lastError.trans f4)⟩

end Sys2Proof.Machine
end

