-- ==== Sys2Proof/Laws/State.lean ====
section
/-!
SUPPORT. What each primitive update writes, one lemma a field, each true by rfl or by the operation's one case. With the lemmas of
Laws/Frames.lean, which say what an operation leaves alone, no proof unfolds a record update.
-/

namespace Sys2Proof.Machine

/-! ### Time -/

@[simp] theorem passTo_now (t : Nat) (s : State) : (passTo t s).now = max s.now t := rfl

@[simp] theorem passToExpiry_stopped (limit : Nat) (s : State) : passToExpiry .stopped limit s = s := rfl

@[simp] theorem passToExpiry_running (since limit : Nat) (s : State) :
    passToExpiry (.running since) limit s = passTo (since + limit) s := rfl

@[simp] theorem Timer.isRunning_stopped : Timer.isRunning .stopped = false := rfl

@[simp] theorem Timer.isRunning_running (since : Nat) : Timer.isRunning (.running since) = true := rfl

@[simp] theorem idleTick_now (s : State) : (idleTick s).now = s.now + 10 := rfl

/-! ### ATTENTION and the conditions -/

@[simp] theorem attend_attention (s : State) : (attend s).link.attention = true := rfl

@[simp] theorem attend_reply (s : State) : (attend s).link.reply = s.link.reply := rfl

@[simp] theorem attend_reason (s : State) : (attend s).link.reason = s.link.reason := rfl

@[simp] theorem attend_detail (s : State) : (attend s).link.detail = s.link.detail := rfl

@[simp] theorem Conditions.holds_raised (c : Conditions) (k : Condition) : (c.raised k).holds k = true := by
  cases k <;> rfl

/-- A raised condition stands, and no other flag changes. -/
@[simp] theorem raise_conditions (k : Condition) (s : State) : (raise k s).adm.conditions = s.adm.conditions.raised k := by
  unfold raise
  split
  · rename_i h
    cases k <;> (rcases hc : s.adm.conditions with ⟨a, b, c, d, e, f, g⟩; simp_all [Conditions.holds, Conditions.raised])
  · rfl

@[simp] theorem raise_view (k : Condition) (s : State) : (raise k s).adm.view = s.adm.view := by
  unfold raise; split <;> rfl

@[simp] theorem raise_ownDemand (k : Condition) (s : State) : (raise k s).adm.ownDemand = s.adm.ownDemand := by
  unfold raise; split <;> rfl

/-! ### The attempt and the slots -/

@[simp] theorem noAttempt_attempt (c : ContentionUnit) : c.noAttempt.attempt = .none := rfl

@[simp] theorem noAttempt_key (c : ContentionUnit) : c.noAttempt.key = 0 := rfl

@[simp] theorem noAttempt_slotDeadline (c : ContentionUnit) : c.noAttempt.slotDeadline = none := rfl

@[simp] theorem noAttempt_releaseSlot (c : ContentionUnit) : c.noAttempt.releaseSlot = c.releaseSlot := rfl

@[simp] theorem noAttempt_claimSlot (c : ContentionUnit) : c.noAttempt.claimSlot = c.claimSlot := rfl

@[simp] theorem noAttempt_presenceDue (c : ContentionUnit) : c.noAttempt.presenceDue = c.presenceDue := rfl

@[simp] theorem noAttempt_failures (c : ContentionUnit) : c.noAttempt.failures = c.failures := rfl

@[simp] theorem completed_failures (c : ContentionUnit) (n : Nat) : (c.completed n).failures = 0 := rfl

@[simp] theorem completed_presenceTimer (c : ContentionUnit) (n : Nat) :
    (c.completed n).presenceTimer = .running n := rfl

@[simp] theorem completed_releaseSlot (c : ContentionUnit) (n : Nat) :
    (c.completed n).releaseSlot = c.releaseSlot := rfl

@[simp] theorem beginAttempt_attempt (n : Nat) (b : Body) (s : State) :
    (beginAttempt n b s).con.attempt = .waiting b := rfl

@[simp] theorem beginAttempt_key (n : Nat) (b : Body) (s : State) :
    (beginAttempt n b s).con.key = keyOf b.cls s.station := rfl

@[simp] theorem beginAttempt_slotDeadline (n : Nat) (b : Body) (s : State) :
    (beginAttempt n b s).con.slotDeadline = some (n + slotWait (keyOf b.cls s.station)) := rfl

/-- Clearing leaves nothing on its way out (R116). -/
theorem clearOutbound_outbound (s : State) :
    (clearOutbound s).con.attempt = .none ∧ (clearOutbound s).con.releaseSlot = none ∧
      (clearOutbound s).con.claimSlot = none ∧ (clearOutbound s).con.presenceDue = false ∧
      (clearOutbound s).line.transmitter = none ∧ (clearOutbound s).con.failures = 0 :=
  ⟨rfl, rfl, rfl, rfl, LineUnit.release_transmitter .., rfl⟩

/-! ### The trip record and the drive lines -/

@[simp] theorem changeTrip_trip (t : Option Trip) (s : State) : (changeTrip t s).seq.trip = t := rfl

@[simp] theorem changeTrip_seq (t : Option Trip) (s : State) : (changeTrip t s).seq = { s.seq with trip := t } := rfl

@[simp] theorem changeTrip_attention (t : Option Trip) (s : State) : (changeTrip t s).link.attention = true := rfl

@[simp] theorem createTrip_counter (p : Purpose) (c : Nat) (o : Origin) (f : Figures) (s : State) :
    (createTrip p c o f s).seq.tripCounter = s.seq.tripCounter + 1 := rfl

@[simp] theorem createTrip_lastTripId (p : Purpose) (c : Nat) (o : Origin) (f : Figures) (s : State) :
    (createTrip p c o f s).seq.lastTripId = s.seq.tripCounter := rfl

@[simp] theorem createTrip_trip (p : Purpose) (c : Nat) (o : Origin) (f : Figures) (s : State) :
    (createTrip p c o f s).seq.trip =
      some { id := s.seq.tripCounter, purpose := p, cls := c, origin := o, figures := f } := rfl

@[simp] theorem createTrip_view (p : Purpose) (c : Nat) (o : Origin) (f : Figures) (s : State) :
    (createTrip p c o f s).adm.view = { tripId := s.seq.tripCounter } := rfl

/-- The end of a trip leaves no record, no demand and no running timer of it (R134). -/
@[simp] theorem endTrip_trip (s : State) : (endTrip s).seq.trip = none := by
  unfold endTrip
  cases h : s.seq.trip <;> simp [h]

@[simp] theorem endTrip_agingTimer (s : State) : (endTrip s).seq.agingTimer = .stopped := by
  unfold endTrip; split <;> rfl

@[simp] theorem endTrip_patience (s : State) : (endTrip s).adm.patience = .stopped := by
  unfold endTrip; split <;> rfl

@[simp] theorem endTrip_ownDemand (s : State) : (endTrip s).adm.ownDemand = none := by
  unfold endTrip; split <;> rfl

@[simp] theorem discardTrip_trip (s : State) : (discardTrip s).seq.trip = none := endTrip_trip s

@[simp] theorem discardTrip_runTimer (s : State) : (discardTrip s).seq.runTimer = .stopped := rfl

@[simp] theorem stopRun_seq (s : State) : (stopRun s).seq = { s.seq with runp := false, spd := .p25 } := rfl

@[simp] theorem holdCar_seq (s : State) :
    (holdCar s).seq = { s.seq with runp := false, spd := .p25, shdn := false, emop := true } := rfl

@[simp] theorem zeroStanding_seq (s : State) :
    (zeroStanding s).seq = { s.seq with commitment := 0, claimClass := 0, stamp := 0 } := rfl

@[simp] theorem goTo_state (st : SeqState) (s : State) : (goTo st s).seq.state = st := by
  unfold goTo; split <;> simp_all [attend]

@[simp] theorem goTo_trip (st : SeqState) (s : State) : (goTo st s).seq.trip = s.seq.trip := by
  unfold goTo; split <;> rfl

/-- A change of state writes SHDN by the state entered (R118). -/
theorem goTo_shdn (st : SeqState) (s : State) (h : s.seq.state ≠ st) : (goTo st s).seq.shdn = (st == .shedPending) := by
  simp [goTo, h, attend]

/-- A change of state sets ATTENTION (R118, R170). -/
theorem goTo_attention (st : SeqState) (s : State) (h : s.seq.state ≠ st) : (goTo st s).link.attention = true := by
  simp [goTo, h, attend]

/-! ### PRESENCE -/

theorem markPresence_due (s : State) (h : s.seq.state.driving = true) : (markPresence s).con.presenceDue = true := by
  simp [markPresence, h]

@[simp] theorem markPresence_releaseSlot (s : State) : (markPresence s).con.releaseSlot = s.con.releaseSlot := by
  unfold markPresence; split <;> rfl

@[simp] theorem markPresence_claimSlot (s : State) : (markPresence s).con.claimSlot = s.con.claimSlot := by
  unfold markPresence; split <;> rfl

/-! ### Replies -/

@[simp] theorem respond_accepted_reply (data : List Byte) (s : State) :
    (respond (.accepted data) s).link.reply = .sending (linkFrame (statusOctet false false s.link.attention) data) := rfl

@[simp] theorem respond_busy_reply (s : State) :
    (respond .busy s).link.reply = .sending (linkFrame (statusOctet true false s.link.attention) []) := rfl

@[simp] theorem respond_check_reply (r : Reason) (d : Nat) (s : State) :
    (respond (.check r d) s).link.reply = .sending (linkFrame (statusOctet false true s.link.attention) []) := rfl

@[simp] theorem respond_check_reason (r : Reason) (d : Nat) (s : State) :
    (respond (.check r d) s).link.reason = r ∧ (respond (.check r d) s).link.detail = d := ⟨rfl, rfl⟩

@[simp] theorem respond_held_reply (id : Fin 16) (s : State) : (respond (.held id) s).link.reply = .held id := rfl

@[simp] theorem respond_attention (a : Answer) (s : State) : (respond a s).link.attention = s.link.attention := by
  cases a <;> rfl

end Sys2Proof.Machine
end

