-- ==== Sys2Proof/Laws/Attempts.lean ====
section
/-!
SUPPORT. What the shared operations can do to the attempt in hand and to the outbound slots, said once each: apart from the choice and
the slot, every operation leaves the attempt as it was or ends it.
-/

namespace Sys2Proof.Machine

/-! ### The attempt -/

theorem endTrip_con (s : State) : (endTrip s).con = s.con := by simp

theorem releaseShedHold_con (s : State) : (releaseShedHold s).con = s.con := by simp

theorem raiseIf_con (p : Bool) (k : Condition) (s : State) : (raiseIf p k s).con = s.con := by simp

theorem restartSettle_con (s : State) : (restartSettle s).con = s.con := by simp

theorem enterParked_attempt (s : State) : (enterParked s).con.attempt = s.con.attempt := by simp

theorem enterShedPending_attempt (s : State) : (enterShedPending s).con.attempt = s.con.attempt := by simp

theorem markPresence_attempt (s : State) : (markPresence s).con.attempt = s.con.attempt := by simp

/-- Abandoning an attempt ends it when it waits, and leaves a message being sent alone (R110). -/
theorem abandonAttempt_attempt (s : State) :
    (abandonAttempt s).con.attempt = s.con.attempt ∨ (abandonAttempt s).con.attempt = .none := by
  simp only [abandonAttempt]; split
  · right; split <;> simp
  · exact .inl rfl

theorem abandonAttempt_not_waiting (s : State) (b : Body) : (abandonAttempt s).con.attempt ≠ .waiting b := by
  simp only [abandonAttempt]; split
  · split <;> simp
  · rename_i h; exact h b

/-- Everything abandoning an attempt can do: the attempt and the record of an abandoned CLAIM (R110, R135). -/
theorem abandonAttempt_con (s : State) :
    (abandonAttempt s).con = s.con ∨ (abandonAttempt s).con = s.con.noAttempt := by
  simp only [abandonAttempt]; split
  · right
    split
    · simp only [claimLost]; (repeat' split) <;> rfl
    · rfl
  · exact .inl rfl

theorem postRelease_attempt (r : Release) (s : State) :
    (postRelease r s).con.attempt = s.con.attempt ∨ (postRelease r s).con.attempt = .none := by
  simp only [postRelease]
  repeat' split
  all_goals grind [abandonAttempt_attempt]

theorem withdrawClaim_attempt (s : State) :
    (withdrawClaim s).con.attempt = s.con.attempt ∨ (withdrawClaim s).con.attempt = .none := by
  simp only [withdrawClaim]
  repeat' split
  all_goals grind [abandonAttempt_attempt]

theorem postShed_attempt (id : Fin 16) (s : State) :
    (postShed id s).con.attempt = s.con.attempt ∨ (postShed id s).con.attempt = .none := by
  simp only [postShed]
  all_goals grind [postRelease_attempt, markPresence_attempt]

theorem oweShed_attempt (s : State) :
    (oweShed s).con.attempt = s.con.attempt ∨ (oweShed s).con.attempt = .none := by
  simp only [oweShed]
  all_goals grind [withdrawClaim_attempt]

theorem shedCar_attempt (s : State) :
    (shedCar s).con.attempt = s.con.attempt ∨ (shedCar s).con.attempt = .none := by
  simp only [shedCar]
  repeat' split
  all_goals grind [postShed_attempt, oweShed_attempt, withdrawClaim_attempt, endTrip_con, enterParked_attempt, enterShedPending_attempt]

theorem shedTest_attempt (s : State) :
    (shedTest s).con.attempt = s.con.attempt ∨ (shedTest s).con.attempt = .none := by
  simp only [shedTest]
  repeat' split
  all_goals grind [shedCar_attempt, raiseIf_con]

theorem rosterChanged_attempt (s : State) :
    (rosterChanged s).con.attempt = s.con.attempt ∨ (rosterChanged s).con.attempt = .none := by
  simp only [rosterChanged]
  all_goals grind [shedTest_attempt, releaseShedHold_con]

theorem changeRoster_attempt (r : Roster) (s : State) :
    (changeRoster r s).con.attempt = s.con.attempt ∨ (changeRoster r s).con.attempt = .none := by
  simp only [changeRoster]
  repeat' split
  all_goals grind [rosterChanged_attempt]

theorem noticeAfter_attempt (b : SupplyMonitor) (s : State) :
    (noticeAfter b s).con.attempt = s.con.attempt ∨ (noticeAfter b s).con.attempt = .none := by
  simp only [noticeAfter, supplyNotice]
  repeat' split
  all_goals grind [abandonAttempt_attempt]

theorem noteStart_attempt (b : Body) (s : State) :
    (noteStart b s).con.attempt = s.con.attempt ∨ (noteStart b s).con.attempt = .none := by
  simp only [noteStart]
  repeat' split
  all_goals grind [noticeAfter_attempt, restartSettle_con]

/-- Everything the report of line activity can do to the contention unit (R101, R110). -/
theorem reportActivity_con (s : State) :
    (reportActivity s).con = { s.con with roundTimer := .stopped } ∨
      (reportActivity s).con = { s.con with roundTimer := .stopped }.noAttempt :=
  abandonAttempt_con _

/-- Everything reading the line on can do to the attempt in hand: an activity that begins abandons one that waits (R81, R110). -/
theorem setLine_attempt (u : LineUnit) (s : State) :
    (setLine u s).con.attempt = s.con.attempt ∨ (setLine u s).con.attempt = .none := by
  simp only [setLine]
  split
  · exact abandonAttempt_attempt _
  · exact .inl rfl

/-! ### The slots -/

theorem abandonAttempt_slots (s : State) :
    (abandonAttempt s).con.releaseSlot = s.con.releaseSlot ∧ (abandonAttempt s).con.claimSlot = s.con.claimSlot ∧
      (abandonAttempt s).con.presenceDue = s.con.presenceDue ∧ (abandonAttempt s).con.failures = s.con.failures := by
  rcases abandonAttempt_con s with h | h <;> simp [h]

/-- A posted RELEASE stands in its slot, and no CLAIM waits (R105, R112). -/
theorem postRelease_slot (r : Release) (s : State) :
    (postRelease r s).con.releaseSlot = some r ∧ (postRelease r s).con.attempt.isWaiting .claim = false := by
  simp only [postRelease]
  split
  · refine ⟨by simp [abandonAttempt_slots], ?_⟩
    have h := abandonAttempt_not_waiting { s with con := { s.con with
      releaseSlot := some r, superseded := s.con.superseded || s.con.attempt.isSending .release } }
    generalize (abandonAttempt _).con.attempt = a at h ⊢
    cases a with
    | waiting b => exact absurd rfl (h b)
    | _ => rfl
  · rename_i h
    exact ⟨rfl, by simpa using h⟩

/-- After a withdrawal the CLAIM is out of its slot, or it is being sent and marked withdrawn (R115). -/
theorem withdrawClaim_slot (s : State) :
    (s.con.attempt.isSending .claim = true ∧ withdrawClaim s = { s with con := { s.con with withdrawn := true } }) ∨
      (s.con.attempt.isSending .claim = false ∧ (withdrawClaim s).con.claimSlot = none) := by
  unfold withdrawClaim
  split
  · rename_i h; exact .inl ⟨h, rfl⟩
  · rename_i h; exact .inr ⟨by simpa using h, rfl⟩

end Sys2Proof.Machine
end

