-- ==== Sys2Proof/Laws/Fields.lean ====
section
/-!
SUPPORT. What goes out in a field comes back from it: octets, two-octet numbers and signed draws (00_scope Conventions, R88).
-/

namespace Sys2Proof.Machine

theorem octet_toNat (n : Nat) : (octet n).toNat = n % 256 := by simp [octet]

/-- The two octets of a number carry it modulo 65536. -/
theorem number16_word16 (n : Nat) : number16 (octet (n / 256)) (octet n) = n % 65536 := by
  simp only [number16, octet_toNat]; omega

/-- A draw that a message can carry comes back as it went (R89, R92). -/
theorem int16_signed16 (n : Int) (h : -32768 ≤ n ∧ n ≤ 32767) :
    int16 (octet ((n % 65536).toNat / 256)) (octet (n % 65536).toNat) = n := by
  simp only [int16, number16_word16]
  split <;> omega

theorem signed16_length (n : Int) : (signed16 n).length = 2 := rfl

theorem word16_length (n : Nat) : (word16 n).length = 2 := rfl

/-- The state summaries are the codes of the driving states (R85, R88). -/
theorem summaryOfCode_code (st : SeqState) (h : st.driving = true) : summaryOfCode st.code = some st := by
  cases st <;> revert h <;> decide

theorem reasonOfCode_code (r : ReleaseReason) : reasonOfCode r.code = some r := by cases r <;> rfl

theorem speedOfCode_code (v : SpeedStep) : speedOfCode v.code = v := by cases v <;> rfl

theorem positionOf_code (p : Position) : positionOf (octet p.code) = some p := by cases p <;> decide

end Sys2Proof.Machine
end

