-- ==== Sys2Proof/Laws/Operations.lean ====
section
/-!
SUPPORT. Everything the larger shared operations can do, one inversion lemma each: a request taken, a roster written, a choice made, an
attempt ended, an observation offered.
-/

namespace Sys2Proof.Machine

/-! ### Requests (R168, R169, R171) -/

/-- The state in which a taken request acts. -/
def requestTaken (s : State) : State :=
  { s with link := { s.link with receiver := .idle, reason := .none, detail := 0 } }

/-- While RESET is held no request can be taken (R132). -/
theorem linkReady_released (s : State) (h : linkReady s = true) : inReset s = false := by
  cases hr : inReset s <;> simp_all [linkReady]

/-- Octets that make up a request leave the receiver RECEIVING (R167). -/
theorem octetsArrive_ready (s : State) (h : linkReady s = true) :
    octetsArrive s = { s with link := { s.link with receiver := .receiving s.now } } := by simp [octetsArrive, h]

/-- Octets that arrive while a reply is outstanding, or while the receiver discards, leave it DISCARDING (R167, R168). -/
theorem octetsArrive_lost (s : State) (h : linkReady s = false) : octetsArrive s = loseRequest s := by
  simp [octetsArrive, h]

/-- A request lost leaves no receiver RECEIVING. -/
theorem loseRequest_receiver (s : State) (n : Nat) : (loseRequest s).link.receiver ≠ .receiving n := by
  unfold loseRequest; cases inReset s <;> simp

/-- Everything 10 ms of quiet can do: nothing to an idle receiver, and to the others the time and IDLE (R167). -/
theorem linkQuiet_cases (s : State) :
    (s.link.receiver = .idle ∧ linkQuiet s = s) ∨
      ∃ since, (s.link.receiver = .receiving since ∨ s.link.receiver = .discarding since) ∧
        linkQuiet s = { passTo (since + 10000) s with link := { s.link with receiver := .idle } } := by
  unfold linkQuiet
  split
  · rename_i h; exact .inl ⟨h, rfl⟩
  · rename_i since h; exact .inr ⟨since, .inl h, rfl⟩
  · rename_i since h; exact .inr ⟨since, .inr h, rfl⟩

/-- A frame discarded at its end leaves the receiver IDLE, or DISCARDING where a request would be lost (R167). -/
theorem discardFrame_lost (s : State) (h : linkReady s = false) : discardFrame s = loseRequest s := by
  simp only [discardFrame, octetsArrive_lost s h]
  split
  · rename_i hr; exact absurd hr (loseRequest_receiver s _)
  · rfl

theorem discardFrame_ready (s : State) (h : linkReady s = true) :
    discardFrame s = { s with link := { s.link with receiver := .idle } } := by
  simp [discardFrame, octetsArrive_ready s h]

theorem takeRequest_lost (code : Nat) (b : Bool) (act : State → State × Answer) (s : State) (h : linkReady s = false) :
    takeRequest code b act s = loseRequest s := by
  simp only [takeRequest, octetsArrive_lost s h]
  split
  · rename_i hr; exact absurd hr (loseRequest_receiver s _)
  · rfl

theorem takeRequest_early (code : Nat) (act : State → State × Answer) (s : State) (h : linkReady s = true)
    (hc : configured s = false) :
    takeRequest code false act s = respond (.check .notConfigured code) (requestTaken s) := by
  have hc' : configured (requestTaken s) = false := hc
  simp only [requestTaken] at hc' ⊢
  simp [takeRequest, octetsArrive_ready s h, hc']

theorem takeRequest_taken (code : Nat) (b : Bool) (act : State → State × Answer) (s : State) (h : linkReady s = true)
    (hc : configured s = true ∨ b = true) :
    takeRequest code b act s = respond (act (requestTaken s)).2 (act (requestTaken s)).1 := by
  have hc' : configured (requestTaken s) = true ∨ b = true := hc
  simp only [requestTaken] at hc' ⊢
  rcases hc' with hc' | hc' <;> simp [takeRequest, octetsArrive_ready s h, hc']

/-! ### The roster (R28) -/

/-- Writing a roster either changes no standing, or runs what a roster change sets off. -/
theorem changeRoster_cases (r : Roster) (s : State) :
    (sameStandings s.roster.records r.records = true ∧ changeRoster r s = { s with roster := r }) ∨
      (sameStandings s.roster.records r.records = false ∧ changeRoster r s = rosterChanged { s with roster := r }) := by
  cases h : sameStandings s.roster.records r.records <;> simp [changeRoster, h]

/-- Outside the driving states no shed test is run (R151). -/
theorem shedTest_silent (s : State) (h : s.seq.state.driving = false) : shedTest s = s := by simp [shedTest, h]

/-! ### The choice (R107, R108) -/

/-- Everything a choice can do: nothing, or one of the three slots begins its attempt. -/
theorem chooseSlot_cases (n : Nat) (offer : Option (Option SpeedStep × StepFigures)) (s : State) :
    chooseSlot n offer s = s ∨
      (mayChoose s = true ∧
        ((∃ r, s.con.releaseSlot = some r ∧ chooseSlot n offer s = beginAttempt n (.release r) s) ∨
          (s.con.releaseSlot = none ∧ ∃ p o t, s.con.claimSlot = some p ∧ offer = some o ∧ s.seq.trip = some t ∧
            chooseSlot n offer s = chooseClaim n t o s) ∨
          (s.con.releaseSlot = none ∧ s.con.presenceDue = true ∧ chooseSlot n offer s = choosePresence n s))) := by
  unfold chooseSlot
  split
  · rename_i hm
    split
    · rename_i r hr; exact .inr ⟨hm, .inl ⟨r, hr, rfl⟩⟩
    · rename_i hr
      split
      · rename_i p o t hp ht; exact .inr ⟨hm, .inr (.inl ⟨hr, p, o, t, hp, rfl, ht, rfl⟩)⟩
      · by_cases hd : s.con.presenceDue = true
        · exact .inr ⟨hm, .inr (.inr ⟨hr, hd, rfl⟩)⟩
        · left; simp [choosePresence, hd]
  · exact .inl rfl

/-- A choice needs an OPEN round, a clear spoken flag, a driving state and no attempt in hand (R100 to R102, R107). -/
theorem mayChoose_iff (s : State) :
    mayChoose s = true ↔
      s.con.roundOpen = true ∧ s.con.spoken = false ∧ s.seq.state.driving = true ∧ s.con.attempt = .none := by
  simp [mayChoose, and_assoc]

/-! ### Evaluation (R46) -/

theorem evaluate_none (s : State) (h : s.seq.trip = none) : evaluate s = s := by simp [evaluate, h]

theorem evaluate_cases (s : State) :
    evaluate s = s ∨ ∃ t, s.seq.trip = some t ∧ evaluable s t = true ∧ evaluate s = evaluateTrip t s := by
  unfold evaluate
  split
  · rename_i t ht
    split
    · rename_i he; exact .inr ⟨t, ht, he, rfl⟩
    · exact .inl rfl
  · exact .inl rfl

/-! ### Observation (R177, R178) -/

/-- Everything an offer to the filters can do: nothing, one entry more in a queue that has room, or overrun. -/
theorem offerObservation_cases (o : Observation) (s : State) :
    offerObservation o s = s ∨
      (s.link.queue.length < 16 ∧
        offerObservation o s = attend { s with link := { s.link with queue := s.link.queue ++ [o] } }) ∨
      offerObservation o s = attend { s with link := { s.link with overrun := true } } := by
  unfold offerObservation
  split
  · split
    · rename_i h; exact .inr (.inl ⟨h, rfl⟩)
    · split
      · exact .inl rfl
      · exact .inr (.inr rfl)
  · exact .inl rfl

/-! ### Attempts ended (R114) -/

/-- With no message being sent there is no attempt to fail. -/
theorem failAttempt_idle (s : State) (h : ∀ b, s.con.attempt ≠ .sending b) : failAttempt s = s := by
  unfold failAttempt
  split
  · rename_i b hb; exact absurd hb (h b)
  · rfl

/-- An attempt that fails counts one failure more and, at the eighth in a driving state, enters FALLBACK (R114, R158). -/
theorem failAttempt_sending (s : State) (b : Body) (h : s.con.attempt = .sending b) :
    failAttempt s =
      if Config.failureLimit ≤ (failSlot b s).con.failures ∧ (failSlot b s).seq.state.driving = true then
        enterFallback (failSlot b s) else failSlot b s := by
  simp [failAttempt, h]

/-! ### The supply (R68, R69, R75) -/

theorem noticeAfter_quiet (b : SupplyMonitor) (s : State) (h : noticeDue b s.supply = false) : noticeAfter b s = s := by
  simp [noticeAfter, h]

theorem noticeAfter_due (b : SupplyMonitor) (s : State) (h : noticeDue b s.supply = true) :
    noticeAfter b s = abandonAttempt s := by simp [noticeAfter, h, supplyNotice]

/-- A class that does not change delivers nothing. -/
theorem becomeClass_same (c : FreqClass) (s : State) (h : s.supply.freqClass = c) : becomeClass c s = s := by
  simp [becomeClass, SupplyMonitor.withClass, h, noticeAfter, noticeDue, supplyEdge]

end Sys2Proof.Machine
end

