-- ==== Sys2Proof/Laws/PerInstr.lean ====
section
/-!
SUPPORT. A statement about every command as syntax: a request's frame (R166, R171) is read back as that request (R167). Commands that
are no request of the car link have no frame.
-/

namespace Sys2Proof.Laws

/-- The frame of any octets sums to 0 modulo 256 (R166). -/
theorem octetSum_closed (front : List Byte) : octetSum (front ++ [checksumOf front]) = 0 := by
  simp only [octetSum, checksumOf, List.map_append, List.sum_append, List.map_cons, List.map_nil, List.sum_cons, List.sum_nil,
    BitVec.toNat_ofNat]
  omega

/-- A frame whose length octet says its length, of a code that takes that length, is read as the request it is. -/
theorem readFrame_linkFrame (code : Byte) (fields : List Byte) (h : fields.length ≤ 42) :
    readFrame (linkFrame code fields) false =
      match requestLength code.toNat with
      | none => .unknownRequestCode code fields
      | some n =>
        if n ≠ fields.length then .requestDiscarded .wrongLength
        else (requestOf code.toNat fields).getD (.requestDiscarded .wrongLength) := by
  have hl : (BitVec.ofNat 8 fields.length).toNat = fields.length := by
    rw [BitVec.toNat_ofNat]; omega
  have hs := octetSum_closed (code :: BitVec.ofNat 8 fields.length :: fields)
  simp only [List.cons_append] at hs
  have hn : ¬ 42 < fields.length := by omega
  simp [linkFrame, readFrame, hl, hs, hn]
  all_goals rfl

end Sys2Proof.Laws

namespace Sys2Proof.Laws.FrameRoundTrip

/-- The frame of a well-formed request is read back as that request. -/
def Statement (i : Instr) : Prop := wellFormed i = true → ∀ f, requestFrame i = some f → readFrame f false = i

theorem coldReset (pins : ResetPins) : Statement (.coldReset pins) := by
  intro _ f hf; cases hf

theorem configure (record : List Byte) : Statement (.configure record) := by
  intro hw f hf
  have hl : record.length = 42 := by simpa [wellFormed] using hw
  obtain rfl := Option.some.inj hf
  rw [readFrame_linkFrame 1 record (by omega)]
  simp only [hl]
  rfl

theorem query : Statement .query := by
  intro _ f hf
  obtain rfl := Option.some.inj hf
  rw [readFrame_linkFrame _ _ (by simp)]
  rfl

theorem sense : Statement .sense := by
  intro _ f hf
  obtain rfl := Option.some.inj hf
  rw [readFrame_linkFrame _ _ (by simp)]
  rfl

theorem clearConditions : Statement .clearConditions := by
  intro _ f hf
  obtain rfl := Option.some.inj hf
  rw [readFrame_linkFrame _ _ (by simp)]
  rfl

theorem readObserved : Statement .readObserved := by
  intro _ f hf
  obtain rfl := Option.some.inj hf
  rw [readFrame_linkFrame _ _ (by simp)]
  rfl

theorem readStation (station : Byte) : Statement (.readStation station) := by
  intro _ f hf
  obtain rfl := Option.some.inj hf
  rw [readFrame_linkFrame _ _ (by simp)]
  rfl

theorem carReport (position : Byte) (landing : Byte) (occupancy : Byte) (reserved : Byte) : Statement (.carReport position landing occupancy reserved) := by
  intro _ f hf
  obtain rfl := Option.some.inj hf
  rw [readFrame_linkFrame _ _ (by simp)]
  rfl

theorem restart : Statement .restart := by
  intro _ f hf
  obtain rfl := Option.some.inj hf
  rw [readFrame_linkFrame _ _ (by simp)]
  rfl

theorem tripRequest (direction : Byte) (load : Byte) (reserved : Byte) : Statement (.tripRequest direction load reserved) := by
  intro _ f hf
  obtain rfl := Option.some.inj hf
  rw [readFrame_linkFrame _ _ (by simp)]
  rfl

theorem tripCancel (tripId : Byte) : Statement (.tripCancel tripId) := by
  intro _ f hf
  obtain rfl := Option.some.inj hf
  rw [readFrame_linkFrame _ _ (by simp)]
  rfl

theorem tripEnd (tripId : Byte) (position : Byte) (landing : Byte) (reserved : Byte) : Statement (.tripEnd tripId position landing reserved) := by
  intro _ f hf
  obtain rfl := Option.some.inj hf
  rw [readFrame_linkFrame _ _ (by simp)]
  rfl

theorem serviceSelect (value : Byte) (reserved : Byte) : Statement (.serviceSelect value reserved) := by
  intro _ f hf
  obtain rfl := Option.some.inj hf
  rw [readFrame_linkFrame _ _ (by simp)]
  rfl

theorem callEvent (source : Byte) (reserved : Byte) : Statement (.callEvent source reserved) := by
  intro _ f hf
  obtain rfl := Option.some.inj hf
  rw [readFrame_linkFrame _ _ (by simp)]
  rfl

theorem unknownRequestCode (code : Byte) (fields : List Byte) : Statement (.unknownRequestCode code fields) := by
  intro hw f hf
  have hk : (code.toNat = 0 ∨ 13 < code.toNat) ∧ fields.length ≤ 42 := by simpa [wellFormed, knownCode] using hw
  obtain rfl := Option.some.inj hf
  rw [readFrame_linkFrame code fields hk.2]
  have hn : requestLength code.toNat = none := by
    unfold requestLength
    split <;> first | rfl | omega
  rw [hn]

theorem requestDiscarded (cause : DiscardCause) : Statement (.requestDiscarded cause) := by
  intro _ f hf; cases hf

theorem requestGapExpiry : Statement .requestGapExpiry := by
  intro _ f hf; cases hf

theorem discardQuietExpiry : Statement .discardQuietExpiry := by
  intro _ f hf; cases hf

theorem replySent : Statement .replySent := by
  intro _ f hf; cases hf

theorem trnChange (reading : TrnReading) : Statement (.trnChange reading) := by
  intro _ f hf; cases hf

theorem trnDebounceExpiry : Statement .trnDebounceExpiry := by
  intro _ f hf; cases hf

theorem gokChange (reading : GokReading) : Statement (.gokChange reading) := by
  intro _ f hf; cases hf

theorem gokDebounceExpiry : Statement .gokDebounceExpiry := by
  intro _ f hf; cases hf

theorem capChange (code : Fin 8) : Statement (.capChange code) := by
  intro _ f hf; cases hf

theorem capDebounceExpiry : Statement .capDebounceExpiry := by
  intro _ f hf; cases hf

theorem fsnPulse (period : Nat) : Statement (.fsnPulse period) := by
  intro _ f hf; cases hf

theorem absenceExpiry : Statement .absenceExpiry := by
  intro _ f hf; cases hf

theorem inWindowHalfSecond : Statement .inWindowHalfSecond := by
  intro _ f hf; cases hf

theorem underTimerExpiry : Statement .underTimerExpiry := by
  intro _ f hf; cases hf

theorem capacityHoldExpiry : Statement .capacityHoldExpiry := by
  intro _ f hf; cases hf

theorem settleTimerExpiry : Statement .settleTimerExpiry := by
  intro _ f hf; cases hf

theorem lineActivityStart : Statement .lineActivityStart := by
  intro _ f hf; cases hf

theorem longDominantExpiry : Statement .longDominantExpiry := by
  intro _ f hf; cases hf

theorem endOfActivity (changes : List LineChange) : Statement (.endOfActivity changes) := by
  intro _ f hf; cases hf

theorem roundClose : Statement .roundClose := by
  intro _ f hf; cases hf

theorem slotExpiry : Statement .slotExpiry := by
  intro _ f hf; cases hf

theorem readbackMismatch : Statement .readbackMismatch := by
  intro _ f hf; cases hf

theorem attemptJoined : Statement .attemptJoined := by
  intro _ f hf; cases hf

theorem presenceDueExpiry : Statement .presenceDueExpiry := by
  intro _ f hf; cases hf

theorem recordStale (station : Nat) : Statement (.recordStale station) := by
  intro _ f hf; cases hf

theorem startWindowExpiry : Statement .startWindowExpiry := by
  intro _ f hf; cases hf

theorem joinTimerExpiry : Statement .joinTimerExpiry := by
  intro _ f hf; cases hf

theorem occupancyHoldExpiry : Statement .occupancyHoldExpiry := by
  intro _ f hf; cases hf

theorem runLimitExpiry : Statement .runLimitExpiry := by
  intro _ f hf; cases hf

theorem landingDwellExpiry : Statement .landingDwellExpiry := by
  intro _ f hf; cases hf

theorem idleTimerExpiry : Statement .idleTimerExpiry := by
  intro _ f hf; cases hf

theorem agingExpiry : Statement .agingExpiry := by
  intro _ f hf; cases hf

theorem patienceExpiry : Statement .patienceExpiry := by
  intro _ f hf; cases hf

theorem shedHoldExpiry : Statement .shedHoldExpiry := by
  intro _ f hf; cases hf

theorem fallbackTripStart : Statement .fallbackTripStart := by
  intro _ f hf; cases hf

theorem ownWindowClose : Statement .ownWindowClose := by
  intro _ f hf; cases hf

theorem firstBaseGap : Statement .firstBaseGap := by
  intro _ f hf; cases hf

end Sys2Proof.Laws.FrameRoundTrip
end

