-- ==== Sys2Proof/Laws/Roster.lean ====
section
/-!
SUPPORT. The roster keeps its canonical form: what putting a record and offering a stamp do to the places and their order, and the
stamps' ring arithmetic (R18, R30 to R32).
-/

namespace Sys2Proof.Machine

/-! ### Places -/

theorem findRecord_putRecord_self (l : List StationRecord) (r : StationRecord) :
    findRecord (putRecord l r) r.station = some r := by
  induction l with
  | nil => simp [putRecord, findRecord]
  | cons x rest ih =>
    simp only [putRecord]
    split
    · simp [findRecord]
    · split
      · simp [findRecord]
      · rename_i h1 h2
        have hx : (x.station == r.station) = false := by simpa using fun h => h2 h.symm
        simpa [findRecord, hx] using ih

theorem findRecord_putRecord_other (l : List StationRecord) (r : StationRecord) (n : Nat) (h : n ≠ r.station) :
    findRecord (putRecord l r) n = findRecord l n := by
  have hr : (r.station == n) = false := by simpa using fun h' => h h'.symm
  induction l with
  | nil => simp [putRecord, findRecord, hr]
  | cons x rest ih =>
    simp only [putRecord]
    split
    · simp [findRecord, hr]
    · split
      · rename_i h1 h2
        have hx : (x.station == n) = false := by simpa [← h2] using hr
        simp [findRecord, hr, hx]
      · unfold findRecord at ih ⊢
        rw [List.find?_cons, List.find?_cons, ih]

theorem mem_putRecord {l : List StationRecord} {r x : StationRecord} (h : x ∈ putRecord l r) : x = r ∨ x ∈ l := by
  induction l with
  | nil => simpa [putRecord] using h
  | cons y rest ih =>
    simp only [putRecord] at h
    split at h
    · simpa using h
    · split at h
      · rcases List.mem_cons.mp h with h | h
        · exact .inl h
        · exact .inr (List.mem_cons_of_mem _ h)
      · rcases List.mem_cons.mp h with h | h
        · exact .inr (h ▸ List.mem_cons_self)
        · rcases ih h with h | h
          · exact .inl h
          · exact .inr (List.mem_cons_of_mem _ h)

/-- In a rising list the stations after the first are greater than it. -/
theorem risingStations_cons (x : StationRecord) (l : List StationRecord) :
    risingStations (x :: l) = true ↔ (∀ y, l.head? = some y → x.station < y.station) ∧ risingStations l = true := by
  cases l <;> simp [risingStations]

theorem head?_putRecord (l : List StationRecord) (r y : StationRecord) (h : (putRecord l r).head? = some y) :
    y.station = r.station ∨ l.head? = some y := by
  cases l with
  | nil => left; simp [putRecord] at h; exact h ▸ rfl
  | cons x rest =>
    simp only [putRecord] at h
    split at h
    · left; simp at h; exact h ▸ rfl
    · split at h
      · left; simp at h; exact h ▸ rfl
      · right; simpa using h

/-- Putting a record keeps the rising order, and so the canonical form (R18). -/
theorem risingStations_putRecord (l : List StationRecord) (r : StationRecord) (h : risingStations l = true) :
    risingStations (putRecord l r) = true := by
  induction l with
  | nil => rfl
  | cons x rest ih =>
    obtain ⟨hx, hrest⟩ := (risingStations_cons x rest).mp h
    simp only [putRecord]
    split
    · exact (risingStations_cons _ _).mpr ⟨by simpa using ‹_›, h⟩
    · split
      · rename_i h2
        exact (risingStations_cons _ _).mpr ⟨fun y hy => h2 ▸ hx y hy, hrest⟩
      · refine (risingStations_cons _ _).mpr ⟨fun y hy => ?_, ih hrest⟩
        rcases head?_putRecord rest r y hy with h' | h'
        · omega
        · exact hx y h'

/-- Flooring every stamp keeps the rising order. -/
theorem risingStations_map (l : List StationRecord) (f : StationRecord → StationRecord)
    (hf : ∀ x, (f x).station = x.station) : risingStations (l.map f) = risingStations l := by
  induction l with
  | nil => rfl
  | cons x rest ih =>
    cases rest with
    | nil => rfl
    | cons y rest => simp only [List.map_cons, risingStations, hf] at ih ⊢; rw [ih]

/-! ### Stamps -/

theorem ringDiff_self (a : Nat) : ringDiff a a = 0 := by simp [ringDiff]

/-- A floored stamp stands within the floor of the mark (R32). -/
theorem floored_near (mark stamp : Nat) (h : mark ≤ 65535) (hs : floored mark stamp ≠ 0) :
    ringDiff mark (floored mark stamp) ≤ Config.stampReach := by
  unfold floored at *
  split at hs
  · rename_i hc
    rw [if_pos hc]
    simp only [floorStamp, ringDiff, Config.stampReach, Config.stampRing]
    by_cases hb : 32766 < mark
    · simp only [hb, if_true]; split <;> omega
    · simp only [hb, if_false]; split <;> omega
  · rename_i hc
    rw [if_neg hc]
    simp only [not_and, not_lt] at hc
    exact hc hs

/-- A floored stamp is 0 or a stamp of the ring (R30, R32). -/
theorem floored_value (mark stamp : Nat) (h : mark ≤ 65535) (hs : stamp ≤ 65535) : floored mark stamp ≤ 65535 := by
  by_cases hc : stamp ≠ 0 ∧ Config.stampReach < ringDiff mark stamp
  · have hr : Config.stampReach = 32766 := rfl
    have hg : Config.stampRing = 65535 := rfl
    rw [floored, if_pos hc, floorStamp]
    split <;> omega
  · rwa [floored, if_neg hc]

/-- Everything an offer can do (R31, R32): nothing, or the mark takes the stamp and every stored stamp is floored by it. -/
theorem offerStamp_cases (stamp : Nat) (r : Roster) :
    offerStamp stamp r = r ∨
      (stamp ≠ 0 ∧ (r.mark = 0 ∨ newerThan stamp r.mark = true) ∧
        offerStamp stamp r = { r with
          mark := stamp, records := r.records.map fun x => { x with stamp := floored stamp x.stamp } }) := by
  unfold offerStamp
  split
  · exact .inl rfl
  · split
    · exact .inr ⟨‹_›, ‹_›, rfl⟩
    · exact .inl rfl

/-- The effect of a message leaves the record in its station's place, FRESH and just heard (R22 to R25). -/
theorem afterMessage_heard (old : Option StationRecord) (m : Message) (now : Nat)
    (h : ∀ x, old = some x → x.station = m.station) :
    (afterMessage old m now).station = m.station ∧ (afterMessage old m now).fresh = true ∧
      (afterMessage old m now).heard = now := by
  have hs : (old.getD { station := m.station, heard := now }).station = m.station := by
    cases old with
    | none => rfl
    | some x => exact h x rfl
  unfold afterMessage
  rcases hb : m.body with r | c | p
  · simp only [afterRelease]; split <;> simp [hs]
  · simp [afterClaim, hs]
  · simp [afterPresence, hs]

end Sys2Proof.Machine
end

