-- ==== Sys2Proof/Tests/Slice0.lean ====
section
/-!
SUPPORT. The model's own tests. Expected values are the spec's: its tables, its worked figures and sequences, or a rule worked by hand.
The last part shows, for each statement with hypotheses, a state and operands that meet them.
-/

namespace Sys2Proof.Tests
open Sys2Proof Sys2Proof.Machine

/-! ### Helpers -/

/-- The state an answer leaves; the state before it where there is none. -/
def after (i : Instr) (s : State) : State :=
  match exec i s with
  | .next t => t
  | _ => s

/-- Car A of the worked figures (01_trip_figures), as a CONFIGURE record. -/
def recordA : List Byte :=
  [45, 1, 144, 0, 30, 60, 0, 180, 25, 0, 7, 208, 3, 32, 25, 1, 144, 0, 150, 12, 0] ++
    [0, 0, 0, 0, 0, 0, 0, 0, 0, 0, 0, 0, 0, 7, 9, 0, 0, 7, 0, 0, 0]

/-- Car A's configuration, written out. -/
def cfg : Configuration :=
  { bal := 45, full := 400, loss := 30, rgs := 60, start := 180, stby := 25, lspd := .p50, sstep := 2000, rsv := 800
    stepa := 25, absorb := 400, phant := 0, census := 12, settleTime := 5, holdTime := 30, agingTime := 120
    patience := 10, reportInterval := 50, runLimit := 60, dwell := 10, idleTime := 120, window := 120
    idleRestartMask := 7, wakeMask := 9, dmax := 350, gmax := 162 }

/-- Station 5, configured, on a supplied session in a given state. -/
def car (st : SeqState) : State :=
  { now := 1000000, station := 5, config := some cfg, pins := { trn := .emergency, gok := .asserted, cap := 2 }
    seq := { state := st, runp := false, spd := .p25, shdn := st == .shedPending, emop := true
             firstTakeover := false, sessionOrigin := some 0 }
    supply := { trn := .emergency, gok := .asserted, capCode := 2, freqClass := .inWindow, inWindowHalf := true
                settle := .expired, capHeld := 3200 }
    roster := { isOpen := true }
    line := { awaitingGap := false }
    con := { roundOpen := true, roundTimer := .running 990000 } }

/-- The evacuation run of Car A, UP with 100 per cent. -/
def run (p : TripPhase) : Trip :=
  { id := 3, purpose := .evacuation, cls := 2, origin := .evacWait, figures := runFigures cfg 55, phase := p
    step := if p = .pending then none else some .p50 }

def serviceRun (p : TripPhase) (cls : Nat) : Trip :=
  { id := 3, purpose := .service, cls := cls, origin := .serviceIdle, figures := runFigures cfg 55, phase := p }

def withTrip (t : Trip) (s : State) : State := { s with seq := { s.seq with trip := some t } }

def withAttempt (a : Attempt) (s : State) : State := { s with con := { s.con with attempt := a } }

def claimOfRun : Claim :=
  { cls := 2, kind := .run, speed := .p50, tripId := 3, draw := 140, start := 252, stamp := 1, dmax := 350 }

/-- A short RELEASE of station 7. -/
def release7 : Message := { station := 7, body := .release { reason := .park, tripId := 1, draw := 0, stamp := 0 } }

/-- Another station has just pulled the quiet line dominant. -/
def active (s : State) : State := after .lineActivityStart s

/-- The message of this body that a car begins to send now. -/
def outgoing (b : Body) (s : State) : Sending :=
  { octets := encodeMessage { station := s.station, body := b }, startedAt := s.now }

/-- This car has just begun to send this body, on a line that follows it. -/
def sending (b : Body) (s : State) : State :=
  { s with con := { s.con with attempt := .sending b }, line := s.line.begin (outgoing b s) }

def heardRecord : StationRecord := { station := 7, committed := 85, cls := 4, stamp := 1, heard := 900000 }

def withRecord (s : State) : State := { s with roster := { isOpen := true, records := [heardRecord], mark := 1 } }

/-- What another station's message leaves on the line. -/
def lineOf (m : Message) : List LineChange := bitChanges (encodeMessage m)

/-- The message that an activity is judged to be, once its end is recognised. -/
def heardAs (changes : List LineChange) (s : State) : Option Message :=
  match s.line.recognised changes with
  | some (_, u) => (judgeActivity u).toOption
  | none => none

/-- The check that an activity fails, once its end is recognised. -/
def failedAs (changes : List LineChange) (s : State) : Option LineError :=
  match s.line.recognised changes with
  | some (_, u) => match judgeActivity u with
    | .error k => some k
    | .ok _ => none
  | none => none

theorem heardAs_spec {changes : List LineChange} {s : State} {m : Message} (h : heardAs changes s = some m) :
    ∃ reference u, s.line.recognised changes = some (reference, u) ∧ judgeActivity u = .ok m := by
  unfold heardAs at h
  split at h
  · rename_i r u e
    refine ⟨r, u, e, ?_⟩
    cases k : judgeActivity u <;> simp_all [Except.toOption]
  · cases h

theorem failedAs_spec {changes : List LineChange} {s : State} {k : LineError} (h : failedAs changes s = some k) :
    ∃ reference u, s.line.recognised changes = some (reference, u) ∧ judgeActivity u = .error k := by
  unfold failedAs at h
  split at h
  · rename_i r u e
    refine ⟨r, u, e, ?_⟩
    cases j : judgeActivity u <;> simp_all
  · cases h

/-! ### Ill-formed operands are refused -/

theorem test_wellFormed_refuses :
    wellFormed (.configure (List.replicate 41 0)) = false ∧ wellFormed (.unknownRequestCode 13 []) = false ∧
      wellFormed (.unknownRequestCode 14 (List.replicate 43 0)) = false ∧ wellFormed (.fsnPulse 0) = false ∧
      wellFormed (.endOfActivity [⟨10, .recessive⟩, ⟨10, .dominant⟩]) = false ∧
      wellFormed (.endOfActivity [⟨20, .dominant⟩, ⟨10, .recessive⟩]) = false ∧
      wellFormed (.recordStale 0) = false ∧ wellFormed (.recordStale 63) = false := by decide

theorem test_wellFormed_accepts :
    wellFormed (.configure recordA) = true ∧ wellFormed (.unknownRequestCode 14 []) = true ∧
      wellFormed (.fsnPulse 1) = true ∧ wellFormed (.endOfActivity []) = true ∧
      wellFormed (.endOfActivity [⟨10, .recessive⟩, ⟨11, .dominant⟩]) = true ∧
      wellFormed (.recordStale 1) = true ∧ wellFormed (.recordStale 62) = true := by decide

/-! ### The frames of the requests (R166, R167, R171) -/

/-- R166 gives QUERY as 02, 00, FE hex. -/
theorem test_frame_query : requestFrame .query = some [0x02, 0x00, 0xFE] := by decide

/-- Frames written out octet by octet: code, length, fields, and the octet that makes the sum 0 modulo 256. -/
theorem test_readFrame :
    readFrame [0x02, 0x00, 0xFE] false = .query ∧ readFrame [0x03, 0x00, 0xFD] false = .sense ∧
      readFrame [0x06, 0x01, 0x05, 0xF4] false = .readStation 5 ∧
      readFrame [0x09, 0x03, 0x01, 0x64, 0x00, 0x8F] false = .tripRequest 1 100 0 ∧
      readFrame [0x0A, 0x01, 0x03, 0xF2] false = .tripCancel 3 ∧
      readFrame [0x0D, 0x02, 0x02, 0x00, 0xEF] false = .callEvent 2 0 := by decide

/-- Frames that R167 discards: a bad sum, a wrong length for the code, a low stop bit, a length above 42; and a code outside R171. -/
theorem test_readFrame_discards :
    readFrame [0x02, 0x00, 0xFF] false = .requestDiscarded .checksum ∧
      readFrame [0x02, 0x01, 0x00, 0xFD] false = .requestDiscarded .wrongLength ∧
      readFrame [0x02, 0x00, 0xFE] true = .requestDiscarded .octetFraming ∧
      readFrame [0x02, 0x2B] false = .requestDiscarded .lengthAbove42 ∧
      readFrame [0x0E, 0x00, 0xF2] false = .unknownRequestCode 14 [] := by decide

/-! ### Tables and worked figures -/

set_option maxRecDepth 20000 in
/-- The check of R84: 31 to 39 hex give 29B1. -/
theorem test_crc : crcOf [0x31, 0x32, 0x33, 0x34, 0x35, 0x36, 0x37, 0x38, 0x39] = 0x29B1#16 := by decide

/-- Car A, UP with 100 and DOWN with 100 (01_trip_figures, Worked Figures). -/
theorem test_worked_figures :
    runFigures cfg (signedDemand 45 100 .up) = .run ⟨85, 153⟩ ⟨140, 252⟩ ⟨195, 351⟩ ⟨250, 450⟩ ∧
      runFigures cfg (signedDemand 45 100 .down) = .run ⟨-3, 54⟩ ⟨-36, 54⟩ ⟨-69, 54⟩ ⟨-102, 54⟩ := by decide

/-- Car A's declared maxima (01_trip_figures). -/
theorem test_worked_maxima : declaredDmax cfg = 350 ∧ declaredGmax cfg = 162 := by decide

/-- The ring wraps from 65535 to 1 (R30). -/
theorem test_stamp_wrap : nextStamp 65535 = 1 ∧ newerThan 1 65535 = true ∧ newerThan 65535 1 = false := by decide

/-- A START of 12 bit times for key 0 and two more for each key (R104). -/
theorem test_slotWait : slotWait (keyOf 2 5) = (12 + 2 * 133) * 10 := by decide

/-! ### One step of each command -/

theorem test_coldReset : exec (.coldReset ⟨1, .released⟩) State.reset = .next State.reset := rfl

theorem test_coldReset_emergency :
    (after (.coldReset ⟨21, .released⟩) (car .evacRun)).seq.runp = false ∧ (after (.coldReset ⟨21, .released⟩) (car .evacRun)).station = 21 := by
  decide

/-- While RESET is held RUNP is negated under utility supply too, and no request is taken; its release gives it by TRN (R132). -/
theorem test_coldReset_held :
    (after (.coldReset ⟨1, .asserted⟩) State.reset).seq.runp = false ∧
      (after .query (after (.coldReset ⟨1, .asserted⟩) State.reset)).link.reply = .none ∧
      after (.coldReset ⟨1, .released⟩) (after (.coldReset ⟨1, .asserted⟩) State.reset) = State.reset := by decide

/-- A reset 20 µs into an activity that was told recessive at 10 µs and dominant at 30 µs: the line reads recessive, and goes dominant
10 µs later (R79, R98). -/
theorem test_restart_reads_told :
    (after .restart { tell [⟨10, .recessive⟩, ⟨30, .dominant⟩] (active (car .parked)) with now := 1000020 }).line =
      { readTo := 1000020, changedAt := 1000020, startedAt := 1000020, coming := [⟨10, .dominant⟩] } := by decide

/-- CONFIGURE of Car A under utility supply: DORMANT, with the maxima of the worked figures (R120, R172). -/
theorem test_configure :
    (after (.configure recordA) State.reset).seq.state = .dormant ∧
      (after (.configure recordA) State.reset).config.map (fun c => (c.dmax, c.gmax, c.lspd)) = some (350, 162, .p50) := by
  decide

/-- BAL 39 is below its range: BAD_FIELD 1 (R172, R173). -/
theorem test_configure_badField :
    (after (.configure (39 :: recordA.drop 1)) State.reset).link.reason = .badField ∧
      (after (.configure (39 :: recordA.drop 1)) State.reset).link.detail = 1 ∧
      (after (.configure (39 :: recordA.drop 1)) State.reset).config = none := by decide

theorem test_query_clears_attention : (after .query State.reset).link.attention = false := by decide

/-- SENSE after cold reset: reason NONE, detail 0, line error NONE; status with ATTENTION (R169, R175). -/
theorem test_sense : (after .sense State.reset).link.reply = .sending [0x20, 3, 0, 0, 0, 0xDD] := by decide

theorem test_clearConditions_notConfigured :
    (after .clearConditions State.reset).link.reason = .notConfigured ∧
      (after .clearConditions State.reset).link.detail = 4 := by decide

theorem test_clearConditions :
    (after .clearConditions
      { car .parked with adm := { conditions := { line := true, overtime := true } } }).adm.conditions = {} := by
  decide

theorem test_readObserved_empty : (after .readObserved (car .parked)).link.reply = .sending [0x20, 2, 0, 0, 0xDE] := by
  decide

theorem test_readStation_high : (after (.readStation 63) (car .parked)).link.reason = .badField := by decide

/-- A report at a landing in ASSESS makes the wake trip of R127, of class 1 for an occupied car. -/
theorem test_carReport :
    (after (.carReport 1 4 1 0) (car .assess)).seq.state = .evacWait ∧
      (after (.carReport 1 4 1 0) (car .assess)).seq.trip.map Trip.cls = some 1 ∧
      (after (.carReport 1 4 1 0) (car .assess)).con.claimSlot = some { kind := .wake, tripId := 0 } := by
  decide

theorem test_carReport_badField : (after (.carReport 1 4 2 0) (car .assess)).link.detail = 3 := by decide

theorem test_restart :
    (after .restart (car .evacRun)).seq.state = .awaitSupply ∧ (after .restart (car .evacRun)).config = some cfg := by
  decide

theorem test_tripRequest :
    (after (.tripRequest 1 100 0) (car .evacWait)).seq.trip =
      some { id := 0, purpose := .evacuation, cls := 2, origin := .evacWait, figures := runFigures cfg 55 } := by
  decide

theorem test_tripRequest_wrongState :
    (after (.tripRequest 1 100 0) (car .parked)).link.reason = .wrongState ∧
      (after (.tripRequest 1 100 0) (car .parked)).link.detail = 6 := by decide

theorem test_tripCancel :
    (after (.tripCancel 3) (withTrip (run .pending) (car .evacWait))).seq.trip = none := by decide

theorem test_tripCancel_running :
    (after (.tripCancel 3) (withTrip (run .running) (car .evacRun))).link.reason = .tripActive := by decide

/-- An evacuation run ended at a landing: LANDED, and a RELEASE to STBY (R141). -/
theorem test_tripEnd :
    (after (.tripEnd 3 1 40 0) (withTrip (run .running) (car .evacRun))).seq.state = .landed ∧
      (after (.tripEnd 3 1 40 0) (withTrip (run .running) (car .evacRun))).con.releaseSlot =
        some { reason := .tripEnd, tripId := 3, draw := 25, stamp := 0 } := by decide

theorem test_tripEnd_noTrip : (after (.tripEnd 4 1 40 0) (withTrip (run .running) (car .evacRun))).link.reason = .noTrip := by
  decide

theorem test_serviceSelect : (after (.serviceSelect 1 0) (car .landed)).seq.serviceSelected = true := by decide

theorem test_callEvent_wakes :
    (after (.callEvent 1 0) (car .parked)).seq.state = .serviceWait ∧
      (after (.callEvent 2 0) (car .parked)).seq.state = .parked := by decide

theorem test_unknownRequestCode :
    (after (.unknownRequestCode 14 []) (car .parked)).link.reply = .sending [0x60, 0, 0xA0] := by decide

theorem test_requestDiscarded :
    (after (.requestDiscarded .checksum) (car .parked)).link.reply = .none ∧
      (after (.requestDiscarded .lengthAbove42) (car .parked)).link.receiver = .discarding 1000000 := by decide

/-- After 10 ms of quiet the receiver is IDLE, also where a reply is outstanding or it discards (R167). -/
theorem test_requestGapExpiry :
    (after .requestGapExpiry (after .query (car .parked))).link.receiver = .idle ∧
      (after .requestGapExpiry (after (.requestDiscarded .lengthAbove42) (car .parked))).link.receiver = .idle := by decide

theorem test_replySent : (after .replySent (after .sense State.reset)).link.reply = .none := by decide

theorem test_trnChange : (after (.trnChange .emergency) State.reset).supply.trnTimer = .running 0 := by decide

theorem test_takeover :
    (after .trnDebounceExpiry (after (.trnChange .emergency) (after (.configure recordA) State.reset))).seq.startWindowLength =
      60000000 := by decide

theorem test_gokChange_bounce :
    (after (.gokChange .negated) (after (.gokChange .asserted) State.reset)).supply.gokTimer = .stopped := by decide

theorem test_capChange : (after (.capChange 3) State.reset).supply.candidate = some 3 := by decide

/-- Code 1 at 2000 a code less RSV 800 (R38, R70). -/
theorem test_capDebounce :
    (after .capDebounceExpiry (after (.capChange 1) (car .parked))).supply.capHeld = 1200 := by decide

/-- At 50 Hz nominal: 20000 µs is in the window, 22000 µs (45.45 Hz) is below 0.94 (R65). -/
theorem test_fsnPulse :
    (after (.fsnPulse 20000) (after (.fsnPulse 20000) State.reset)).supply.freqClass = .inWindow ∧
      (after (.fsnPulse 22000) (after (.fsnPulse 20000) State.reset)).supply.freqClass = .under := by decide

/-- R65 bounds the window at 0.985 and 1.015, both included. -/
theorem test_fsnPulse_bounds :
    classifyPeriod 50 20304 = .inWindow ∧ classifyPeriod 50 20305 = .offWindow ∧ classifyPeriod 50 21276 = .offWindow ∧
      classifyPeriod 50 21277 = .under ∧ classifyPeriod 50 19705 = .inWindow ∧ classifyPeriod 50 19704 = .offWindow := by
  decide

theorem test_underTimer :
    (after .underTimerExpiry
      { car .parked with supply := { (car .parked).supply with underTimer := .running 0 } }).supply.capHeld = 1200 := by
  decide

theorem test_lineActivityStart :
    (after .lineActivityStart (withAttempt (.waiting release7.body) (car .parked))).con.attempt = .none ∧
      lineLevel (active (car .parked)) = .dominant := by decide

/-- 16 bit times dominant mark the activity and raise LINE (R83). -/
theorem test_longDominant : (after .longDominantExpiry (active (car .parked))).adm.conditions.line = true ∧
    (after .longDominantExpiry (active (car .parked))).line.longMark = true ∧
    (after .longDominantExpiry (active (car .parked))).now = 1000160 := by decide

/-- The timer runs from the last dominant edge (R83): it expires 16 bit times after the edge at time 9, and not at all after a
change to recessive. The changes are told by an END_OF_ACTIVITY that finds no end. -/
theorem test_longDominant_restarts :
    (after .longDominantExpiry
      (after (.endOfActivity [⟨10, .recessive⟩, ⟨90, .dominant⟩]) (active (car .parked)))).now = 1000250 ∧
    (after .longDominantExpiry (tell [⟨10, .recessive⟩] (active (car .parked)))).adm.conditions.line = false := by
  decide

set_option maxRecDepth 20000 in
/-- The last octet 1C hex of 05, Timing of the End of a Message: the reference is at 9 and the recognition at 21 bit times. FF hex with
a dominant stop bit: FRAME, and the reference where that bit ends (R81, R82). -/
theorem test_endOfActivity_reference :
    (after (.endOfActivity (bitChanges [0x1C])) (active (car .parked))).con.roundTimer = .running 1000090 ∧
      (after (.endOfActivity (bitChanges [0x1C])) (active (car .parked))).now = 1000210 ∧
      (after (.endOfActivity [⟨10, .recessive⟩, ⟨90, .dominant⟩, ⟨100, .recessive⟩])
        (active (car .parked))).line.lastError = .frame ∧
      (after (.endOfActivity [⟨10, .recessive⟩, ⟨90, .dominant⟩, ⟨100, .recessive⟩])
        (active (car .parked))).con.roundTimer = .running 1000100 := by decide

set_option maxRecDepth 20000 in
/-- The edges that 05 gives after that octet: from time 10 one begins an octet in time, from time 11 one late (FRAME), and after
time 21 one lies past the end. -/
theorem test_next_octet_in_time :
    ((active (car .parked)).line.followToEnd (bitChanges [0x1C] ++ [⟨100, .dominant⟩])).frameMark = false ∧
      ((active (car .parked)).line.followToEnd (bitChanges [0x1C] ++ [⟨110, .dominant⟩])).frameMark = true ∧
      ((active (car .parked)).line.followToEnd (bitChanges [0x1C] ++ [⟨110, .dominant⟩])).octets = [0x1C] ∧
      ((active (car .parked)).line.followToEnd (bitChanges [0x1C] ++ [⟨211, .dominant⟩])).level = .recessive := by
  decide

/-- The activity of that octet, told and not ended, at an instant. -/
def toldOctet (now : Nat) : State := { tell (bitChanges [0x1C]) (active (car .parked)) with now := now }

set_option maxRecDepth 20000 in
/-- An edge at time 21, the very instant of the base gap (R82): taken first it begins a second octet, late, of the same activity;
after the recognition it begins a new activity. A later edge always does. -/
theorem test_edge_at_base_gap :
    (after .lineActivityStart (toldOctet 1000210)).line.octetCount = 1 ∧
      (after .lineActivityStart (toldOctet 1000210)).line.frameMark = true ∧
      (after .lineActivityStart (after (.endOfActivity []) (toldOctet 1000210))).line.octetCount = 0 ∧
      (after .lineActivityStart (after (.endOfActivity []) (toldOctet 1000210))).line.startedAt = 1000210 ∧
      (after .lineActivityStart (toldOctet 1000211)).line.startedAt = 1000211 ∧
      (after .lineActivityStart (toldOctet 1000211)).line.frameMark = false := by decide

/-- The wired-AND (R79): the own start bit pulls a quiet line dominant, and another station's drive outlasts the own. -/
theorem test_wired_and :
    lineLevel (sending release7.body (car .parked)) = .dominant ∧
      (after .readbackMismatch (tell [⟨5, .dominant⟩] (sending release7.body (car .parked)))).line.level = .dominant := by
  decide

set_option maxRecDepth 20000 in
/-- Reading is continuous from reset on (R79): a departure that cuts the own message has read what another station drove before it, so
the first octet, FF hex as sent, holds the bit that was pulled dominant over its middle, and nothing told is left to read. -/
theorem test_departure_reads_on :
    (clearOutbound { car .parked with
        now := 1000150
        line := { (car .parked).line.begin { octets := [0xFF, 0xFF], startedAt := 1000000 } with
          coming := [⟨32, .dominant⟩, ⟨38, .recessive⟩] } }).line.octets = [0xFB] ∧
      (clearOutbound { car .parked with
        now := 1000150
        line := { (car .parked).line.begin { octets := [0xFF, 0xFF], startedAt := 1000000 } with
          coming := [⟨32, .dominant⟩, ⟨38, .recessive⟩] } }).line.coming = [] := by decide

set_option maxRecDepth 20000 in
/-- A line pulled dominant within the base gap after the own message joins it; later than that it begins another activity (R82, R87). -/
theorem test_attemptJoined :
    (after .attemptJoined (tell [⟨910, .dominant⟩] (sending release7.body (car .parked)))).con.failures = 1 ∧
      (after .attemptJoined (tell [⟨1100, .dominant⟩] (sending release7.body (car .parked)))).con.failures = 0 := by decide

set_option maxRecDepth 20000 in
/-- A RELEASE to 0 heard empties its record's class and stamp (R24); the own one, alone on the line, completes (R87). -/
theorem test_endOfActivity_release :
    (after (.endOfActivity (lineOf release7)) (active (withRecord (car .parked)))).roster.records.map
        (fun r => (r.cls, r.stamp)) = [(0, 0)] ∧
      (after (.endOfActivity []) (sending release7.body (car .parked))).con.spoken = true ∧
      (after (.endOfActivity []) (sending release7.body (car .parked))).line.transmitter = none := by decide

/-- The round closes 920 bit times after its reference (R101). -/
theorem test_roundClose : (after .roundClose (car .parked)).now = 1000000 ∧
    (after .roundClose { car .parked with now := 0 }).now = 999200 := by decide

/-- A due PRESENCE of station 5 has key 384 + 5 (R103). -/
theorem test_roundClose_presence :
    (after .roundClose { car .parked with con := { (car .parked).con with presenceDue := true } }).con.key = 389 ∧
      (after .roundClose { car .parked with con := { (car .parked).con with
        presenceDue := true, remarked := true } }).con.remarked = false := by decide

theorem test_slotExpiry_dominant :
    (after .slotExpiry { withAttempt (.waiting release7.body) (car .parked) with
      line := { others := .dominant, level := .dominant, active := true } }).line.transmitter = none := by decide

set_option maxRecDepth 20000 in
/-- The first bit on which another station's drive is read fails the attempt, and so does, in its middle, a bit that the line does not
follow (R86). -/
theorem test_readbackMismatch :
    (after .readbackMismatch (tell [⟨20, .dominant⟩] (sending release7.body (car .parked)))).con.failures = 1 ∧
      (after .readbackMismatch (sending release7.body (car .parked))).now = 1000005 := by decide

theorem test_recordStale :
    (after (.recordStale 7) (withRecord (car .parked))).roster.records.map StationRecord.fresh = [false] := by
  decide

theorem test_startWindow :
    (after .startWindowExpiry { car .awaitSupply with
      seq := { (car .awaitSupply).seq with startWindow := .running 0, startWindowLength := 15000000 }
      supply := {} }).seq.state = .noSupply := by decide

/-- A timer that is not running does not expire (00_scope, Times). -/
theorem test_stopped_timer : exec .joinTimerExpiry (car .joining) = .next (car .joining) := by rfl

theorem test_runLimit :
    (after .runLimitExpiry (withTrip (run .running) { car .evacRun with
      seq := { (car .evacRun).seq with runTimer := .running 0, runp := true } })).seq.runp = false := by decide

theorem test_aging :
    (after .agingExpiry (withTrip (serviceRun .pending 5) { car .serviceWait with
      seq := { (car .serviceWait).seq with agingTimer := .running 0 } })).seq.trip.map Trip.cls = some 3 := by
  decide

theorem test_patience :
    (after .patienceExpiry (withTrip (run .pending) { car .evacWait with
      adm := { patience := .running 0 } })).adm.ownDemand = some 85 := by decide

/-- Station 5's window of 120 s opens 480 s after the session origin (R159). -/
theorem test_fallback_window : timeToOpening (car .fallback) = 479000000 := by decide

theorem test_fallbackTripStart :
    (after .fallbackTripStart (withTrip (run .pending) (car .fallback))).seq.commitment = 85 ∧
      (after .fallbackTripStart (withTrip (run .pending) (car .fallback))).now = 480000000 := by decide

/-- At the very instant at which the first half closes, 540 s after the origin, the start may still be taken; just after it a whole
cycle of 1440 s passes (R161). -/
theorem test_fallbackTripStart_at_close :
    (after .fallbackTripStart (withTrip (run .pending) { car .fallback with now := 540000000 })).now = 540000000 ∧
      (after .fallbackTripStart (withTrip (run .pending) { car .fallback with now := 540000001 })).now = 1920000000 := by
  decide

/-- Twelve bit times after the reset the receiver may begin (R98, log 18). -/
theorem test_firstBaseGap : (after .firstBaseGap State.reset).con.roundTimer = .running 120 := by decide

/-- The line unit reset at 0 on a line that others hold dominant. -/
def heldAtReset : State := { State.reset with line := ({ others := .dominant } : LineUnit).reset 0 }

/-- A line held dominant at the reset has no base gap before the others let go (R98, R99): told at 500 µs, the gap is at 620. -/
theorem test_firstBaseGap_held :
    (after .firstBaseGap heldAtReset).con.roundTimer = .stopped ∧
      (after .firstBaseGap (after (.endOfActivity [⟨500, .recessive⟩]) heldAtReset)).con.roundTimer = .running 620 ∧
      (active (after .firstBaseGap (after (.endOfActivity [⟨500, .recessive⟩]) heldAtReset))).line.active = true := by decide

/-! ### The hypotheses of the statements can be met -/

/-- A car whose CLAIM for this trip completed at this very instant, as the completion keeps it. -/
def justClaimed (t : Trip) (s : State) : State :=
  { s with seq := { s.seq with
    lastClaim := some { trip := { t with cancel := true, prior := some { draw := 25, stamp := 1 } }, instant := s.now } } }

/-- The least and the greatest accepted parameters of the figures (R2). -/
def least : Configuration := { bal := 55, full := 10, loss := 0, rgs := 0, start := 100 }

def most : Configuration := { bal := 40, full := 2000, loss := 500, rgs := 90, start := 300 }

theorem witness_EmptyQueue : State.reset.pending = [] := rfl

theorem witness_MotoringDraw : ∃ (c : Configuration) (d : Nat) (v w : SpeedStep),
    1 ≤ d ∧ d ≤ 85 ∧ 10 ≤ c.full ∧ c.full ≤ 2000 ∧ c.loss ≤ 500 ∧ v.percent ≤ w.percent :=
  ⟨most, 85, .p25, .p100, by decide⟩

theorem witness_MotoringDraw_least : 1 ≤ 1 ∧ 10 ≤ least.full ∧ steadyDraw least 1 25 = 1 := by decide

theorem witness_LevelDraw : least.loss = 0 ∧ most.loss ≠ 0 := by decide

theorem witness_RegeneratingDraw : ∃ (c : Configuration) (m : Nat) (v w : SpeedStep),
    1 ≤ m ∧ m ≤ 85 ∧ c.full ≤ 2000 ∧ c.rgs ≤ 90 ∧ v.percent ≤ w.percent :=
  ⟨most, 85, .p25, .p100, by decide⟩

theorem witness_RegeneratingDraw_rgs0 : least.rgs = 0 ∧ least.full ≤ 2000 := by decide

theorem witness_StartStepRule : ∃ c : Configuration, c.full ≤ 2000 ∧ c.loss ≤ 500 ∧ 100 ≤ c.start ∧ c.start ≤ 300 ∧
    (0 : Int) < 85 ∧ (-85 : Int) ≤ 0 := ⟨most, by decide⟩

theorem witness_StartStepRule_level : least.loss = 0 ∧ 100 ≤ least.start ∧ (0 : Int) ≤ 0 := by decide

theorem witness_DeclaredMaxima : ∃ (c : Configuration) (load : Nat), 40 ≤ c.bal ∧ c.bal ≤ 55 ∧ 10 ≤ c.full ∧
    c.full ≤ 2000 ∧ c.loss ≤ 500 ∧ c.rgs ≤ 90 ∧ load ≤ 125 := ⟨most, 125, by decide⟩

theorem witness_StampRing : ∃ (a b : Nat) (x y : Entry), 1 ≤ a ∧ a ≤ 65535 ∧ 1 ≤ b ∧ b ≤ 65535 ∧ a ≠ b ∧
    x.station ≠ y.station ∧ x.stamp ≠ 0 ∧ y.stamp = 0 :=
  ⟨65535, 1, { station := 1, draw := 0, cls := 0, stamp := 1 }, { station := 2, draw := 0, cls := 0, stamp := 0 },
    by decide⟩

theorem witness_StampRing_equal : ∃ x y : Entry, x.station ≠ y.station ∧ x.stamp = y.stamp ∧ x.stamp = 0 :=
  ⟨{ station := 1, draw := 0, cls := 0, stamp := 0 }, { station := 2, draw := 0, cls := 0, stamp := 0 }, by decide⟩

/-- A roster with one stamped record is sound. -/
theorem witness_RosterSound : RosterSound (withRecord (car .parked)) where
  rising := rfl
  record := by
    intro r hr
    obtain rfl : r = heardRecord := by simpa [withRecord] using hr
    exact ⟨by decide, by decide, by simp [stampValue, heardRecord, Config.stampRing], by decide, by decide⟩
  mark := by simp [stampValue, withRecord, Config.stampRing]
  closed := by decide
  onItsWay := by intro c h; revert h; simp [withRecord, car]

theorem witness_ClaimStampIsNewest : heardRecord ∈ (withRecord (car .parked)).roster.records ∧ heardRecord.stamp ≠ 0 := by
  decide

set_option maxRecDepth 20000 in
theorem witness_HeardMessage : ∃ (s : State) (changes : List LineChange) (reference : Nat) (u : LineUnit) (m : Message),
    s.line.active = true ∧ configured s = true ∧ s.line.transmitter = none ∧ s.roster.isOpen = true ∧
      s.line.recognised changes = some (reference, u) ∧ judgeActivity u = .ok m ∧ m.station ≠ s.station := by
  obtain ⟨r, u, h⟩ := heardAs_spec (changes := lineOf release7) (s := active (withRecord (car .parked))) (m := release7)
    (by decide)
  exact ⟨_, _, r, u, _, by decide, by decide, by decide, by decide, h.1, h.2, by decide⟩

/-- A CLAIM of station 7 with a start step, heard while the settle timer is EXPIRED (R73). -/
def claim7 : Message := { station := 7, body := .claim { claimOfRun with stamp := 2 } }

set_option maxRecDepth 20000 in
theorem witness_HeardMessage_claim : heardAs (lineOf claim7) (active (withRecord (car .parked))) = some claim7 ∧
    0 < claimOfRun.start ∧ (active (withRecord (car .parked))).supply.settle ≠ .stopped := by decide

/-- A PRESENCE of station 9, of which the roster holds no record. -/
def presence9 : Message :=
  { station := 9
    body := .presence { summary := .parked, serviceSelected := false, lockout := false, shedPending := false
                        demand := none, committed := 25, dmax := 350, gmax := 162, stamp := 1 } }

set_option maxRecDepth 20000 in
theorem witness_HeardMessage_presence : heardAs (lineOf presence9) (active (withRecord (car .parked))) = some presence9 ∧
    findRecord (active (withRecord (car .parked))).roster.records 9 = none := by decide

/-- Station 5 draws 2000 for service, more than a Cap of 2100 leaves when station 7 claims 140. -/
def tight (st : SeqState) : State :=
  { withRecord (car st) with
    seq := { (car st).seq with commitment := 2000, claimClass := 4 }, supply := { (car st).supply with capHeld := 2100 } }

set_option maxRecDepth 20000 in
/-- A roster change on which the shed test takes the own car, in SERVICE_IDLE and in SERVICE_RUN (R151, R154). -/
theorem witness_HeardMessage_sheds : ∀ st ∈ [SeqState.serviceIdle, .serviceRun],
    heardAs (lineOf claim7) (active (tight st)) = some claim7 ∧
      (deliverToRoster claim7 0 (tight st).roster).records.map StationRecord.committed = [140] ∧
      (shedSet (withRoster (active (tight st)) (deliverToRoster claim7 0 (tight st).roster))).map Entry.station = [5] := by
  decide

set_option maxRecDepth 20000 in
/-- The CLAIM that withdraws the last demand on the plant: the shed hold that waited for it is CLEAR (R23, R157). -/
theorem witness_HeardMessage_lastDemand :
    (after (.endOfActivity (lineOf claim7)) (active { car .parked with
      seq := { (car .parked).seq with shedHold := .awaitDemand }
      roster := { isOpen := true, records := [{ heardRecord with demand := some 60 }], mark := 1 } })).seq.shedHold = .clear := by
  decide

/-- What the filters keep (R177): station 7 accepted by its number, or refused by it; and a queue of 15 entries or full. -/
theorem witness_Observed : Matches { pattern := 7, care := 63, kinds := 2 } claim7 ∧
    ¬Matches { pattern := 6, care := 63, kinds := 7 } claim7 ∧ ¬Matches { kinds := 5 } claim7 ∧
    (List.replicate 15 (entryOf claim7 false)).length < 16 ∧ 16 ≤ (List.replicate 16 (entryOf claim7 false)).length := by
  refine ⟨⟨by decide, ?_⟩, fun h => absurd (h.2 0 (by decide) (by decide)) (by decide), fun h => absurd h.1 (by decide),
    by decide, by decide⟩
  decide

theorem witness_InvalidActivity : ∃ (s : State) (changes : List LineChange) (reference : Nat) (u : LineUnit) (k : LineError),
    s.line.active = true ∧ configured s = true ∧ s.line.transmitter = none ∧
      s.line.recognised changes = some (reference, u) ∧ FailsWith u k := by
  refine ⟨active (car .parked), [⟨10, .recessive⟩, ⟨90, .dominant⟩, ⟨100, .recessive⟩], 1000100, _, .frame, by decide,
    by decide, by decide, rfl, by decide, by decide⟩

/-- The end of a burst of noise as a reference point (R100): a due PRESENCE, and a trip that is admitted with its claim posted. -/
theorem witness_InvalidActivity_reference : ∃ s t : State,
    (s.line.recognised [⟨20, .recessive⟩]).map Prod.fst = some 1000020 ∧ s.con.attempt = .none ∧ s.con.roundOpen = true ∧
    s.con.spoken = false ∧ s.seq.state.driving = true ∧ s.con.presenceDue = true ∧ s.seq.trip = none ∧
    (after (.endOfActivity [⟨20, .recessive⟩]) s).con.slotDeadline = some (1000020 + (12 + 2 * 389) * 10) ∧
    (t.line.recognised [⟨20, .recessive⟩]).map Prod.fst = some 1000020 ∧ t.con.claimSlot ≠ none ∧
    t.seq.trip = some (run .pending) ∧ (decideTrip t (run .pending)).outcome = .admitted :=
  ⟨active { car .parked with con := { (car .parked).con with presenceDue := true } },
    active (withTrip (run .pending) { car .evacWait with
      con := { (car .evacWait).con with claimSlot := some { kind := .run, tripId := 3 } } }), by decide⟩

set_option maxRecDepth 20000 in
/-- An activity that fails the CRC check: the last octet of station 7's RELEASE is another. -/
theorem witness_FailsWith_crc :
    FailsWith { octets := [0x10, 7, 0x51, 0, 0, 0, 0, 0xB1, 0], octetCount := 9 } .crc := by
  refine ⟨rfl, rfl, ⟨_, _, rfl, by decide⟩, ?_⟩
  rintro ⟨before, hi, lo, h, hc⟩
  have hl : before.length = 7 := by simpa using (congrArg List.length h).symm
  have ht := congrArg (List.take 7) h
  have hd := congrArg (List.drop 7) h
  rw [List.take_left' hl] at ht
  rw [List.drop_left' hl] at hd
  simp only [List.drop, List.cons.injEq, and_true] at hd
  obtain ⟨rfl, rfl⟩ := hd
  subst ht
  revert hc
  decide

set_option maxRecDepth 20000 in
/-- One that fails the field check: station 0. -/
theorem witness_FailsWith_field :
    FailsWith { octets := [0x10, 0, 0x51, 0, 0, 0, 0, 0x79, 0xD6], octetCount := 9 } .field := by
  refine ⟨rfl, rfl, ⟨_, _, rfl, by decide⟩, ⟨[0x10, 0, 0x51, 0, 0, 0, 0], _, _, rfl, by decide⟩, ?_⟩
  rintro (⟨_, st, _, _, _, _, _, _, _, h, -, h1, -⟩ | ⟨_, _, _, _, _, _, _, _, _, _, _, _, _, h, -⟩ |
    ⟨_, _, _, _, _, _, _, _, _, _, _, _, _, _, _, _, h, -⟩)
  · simp only [List.cons.injEq] at h
    obtain ⟨-, rfl, -⟩ := h
    exact absurd h1 (by decide)
  · simp at h
  · simp at h

set_option maxRecDepth 20000 in
/-- The other checks, and an activity that passes all five. -/
theorem witness_FailsWith : FailsWith { longMark := true } .longDominant ∧ FailsWith { frameMark := true } .frame ∧
    FailsWith { octets := [0x1C], octetCount := 1 } .length ∧
    ∀ k, ¬FailsWith { octets := [0x10, 7, 0x51, 0, 0, 0, 0, 0xB1, 0x97], octetCount := 9 } k := by
  refine ⟨rfl, ⟨rfl, rfl⟩, ⟨rfl, rfl, ?_⟩, ?_⟩
  · rintro ⟨first, rest, h, hl⟩
    simp only [List.cons.injEq] at h
    obtain ⟨rfl, -⟩ := h
    revert hl
    decide
  · have hl : LengthRight { octets := [0x10, 7, 0x51, 0, 0, 0, 0, 0xB1, 0x97], octetCount := 9 } := ⟨_, _, rfl, by decide⟩
    have hc : CrcRight [0x10, 7, 0x51, 0, 0, 0, 0, 0xB1, 0x97] := ⟨[0x10, 7, 0x51, 0, 0, 0, 0], _, _, rfl, by decide⟩
    have hf : FieldsRight [0x10, 7, 0x51, 0, 0, 0, 0, 0xB1, 0x97] := .inl ⟨_, _, _, _, _, _, _, _, _, rfl, by decide⟩
    intro k h
    match k, h with
    | .longDominant, h => cases h
    | .frame, h => cases h.2
    | .length, h => exact h.2.2 hl
    | .crc, h => exact h.2.2.2 hc
    | .field, h => exact h.2.2.2.2 hf
    | .none, h => exact h

set_option maxRecDepth 20000 in
theorem witness_DuplicateIsolates :
    ∃ (s : State) (changes : List LineChange) (reference : Nat) (u : LineUnit) (m : Message),
      s.line.active = true ∧ s.seq.state.session = true ∧ s.seq.state ≠ .isolated ∧ s.line.transmitter = none ∧
        s.line.recognised changes = some (reference, u) ∧ judgeActivity u = .ok m ∧ m.station = s.station := by
  obtain ⟨r, u, h⟩ := heardAs_spec (changes := lineOf release7) (s := active { car .parked with station := 7 })
    (m := release7) (by decide)
  exact ⟨_, _, r, u, _, by decide, by decide, by decide, by decide, h.1, h.2, rfl⟩

set_option maxRecDepth 20000 in
/-- A duplicate in DORMANT and in ISOLATED, and one that finds a cancel reply waiting and a shed owed (R130, R164). -/
theorem witness_DuplicateIsolates_others : ∀ st ∈ [SeqState.dormant, .isolated, .serviceWait],
    heardAs (lineOf release7) (active { car st with
      station := 7, seq := { (car st).seq with shedOwed := st == .serviceWait }, link := { reply := .held 3 } }) =
        some release7 := by decide

theorem witness_ReportInterval_stale :
    findRecord (withRecord (car .parked)).roster.records 7 = some heardRecord ∧ heardRecord.fresh = true := by decide

/-- A station of DMAX 350 goes STALE while the own car draws beyond Cap, and while a shed hold waits for a demand that is gone. -/
theorem witness_ReportInterval_sheds : ∃ s t : State, findRecord s.roster.records 7 = some heardRecord ∧
    s.seq.state.driving = true ∧ (shedSet (withRoster s (after (.recordStale 7) s).roster)).map Entry.station = [7, 5] ∧
    findRecord t.roster.records 7 = some heardRecord ∧ t.seq.shedHold = .awaitDemand ∧
    (∀ r ∈ (after (.recordStale 7) t).roster.records, r.demand = none) ∧
    (after (.recordStale 7) t).seq.shedHold = .clear :=
  ⟨{ tight .serviceIdle with supply := { (car .serviceIdle).supply with capHeld := 1900 } },
    { withRecord (car .parked) with seq := { (car .parked).seq with shedHold := .awaitDemand } }, by decide⟩

theorem witness_ReportInterval_presence : ∃ s : State, s.con.presenceTimer = .running 0 ∧ s.seq.state.driving = true :=
  ⟨{ car .joining with con := { presenceTimer := .running 0 } }, by decide⟩

theorem witness_Taking : Taking (car .parked) := by decide

theorem witness_ReadStation : Taking (withRecord (car .parked)) ∧ RosterSound (withRecord (car .parked)) ∧
    ∃ low own other high : Byte, low.toNat = 0 ∧ own.toNat = (car .parked).station ∧
      other.toNat = 62 ∧ findRecord (withRecord (car .parked)).roster.records other.toNat = none ∧ high.toNat = 63 :=
  ⟨by decide, witness_RosterSound, 0, 5, 62, 63, by decide⟩

theorem witness_ReadStation_record : findRecord (withRecord (car .parked)).roster.records (7 : Byte).toNat = some heardRecord ∧
    (7 : Byte).toNat ≠ (car .parked).station := by decide

/-- Beside an empty roster, of a census of one, Car A's run fits at 100: ADMIT while the supply is settled, WAIT_SETTLE before. -/
theorem witness_AdmissionDecides : ∃ (s t : State) (x : Trip) (y : Option SpeedStep × StepFigures)
    (rest : List (Option SpeedStep × StepFigures)), searchSteps s x = y :: rest ∧
      Fits s (motoringSum s) (returningSum s) y.2 ∧ SettledFor s x.cls ∧ (conf s).unmaskStale = false ∧
      (conf s).unmaskPhantom = false ∧ searchSteps t x = y :: rest ∧
      Fits t (motoringSum t) (returningSum t) y.2 ∧ ¬SettledFor t x.cls := by
  refine ⟨car .evacWait, { car .evacWait with supply := { (car .evacWait).supply with settle := .stopped } }, run .pending,
    (some .p100, ⟨250, 450⟩), [(some .p75, ⟨195, 351⟩), (some .p50, ⟨140, 252⟩), (some .p25, ⟨85, 153⟩)], ?_⟩
  simp only [Fits, SettledFor]
  decide

/-- With an unheard station while UNMASK is set: UNDECIDED (R50, R173). -/
theorem witness_AdmissionDecides_undecided : ∃ s : State, (conf s).unmaskPhantom = true ∧
    s.roster.records.length < (conf s).census - 1 :=
  ⟨{ car .evacWait with config := some { cfg with unmaskPhantom := true } }, by decide⟩

/-- A plant filled by others, and a capacity below the floor step: WAIT_HEADROOM and EXCEEDS (R50). -/
theorem witness_AdmissionDecides_refused : ∃ (s t : State) (x : Trip) (lowest : Option SpeedStep × StepFigures)
    (above : List (Option SpeedStep × StepFigures)), searchSteps s x = above ++ [lowest] ∧
      searchSteps t x = above ++ [lowest] ∧ (∀ y ∈ searchSteps s x, ¬Fits s (motoringSum s) (returningSum s) y.2) ∧
      Fits s 0 0 lowest.2 ∧ (∀ y ∈ searchSteps t x, ¬Fits t (motoringSum t) (returningSum t) y.2) ∧
      ¬Fits t 0 0 lowest.2 := by
  refine ⟨{ car .evacWait with roster := { isOpen := true, records := [{ heardRecord with committed := 3200 }], mark := 1 } },
    { car .evacWait with supply := { (car .evacWait).supply with capCode := 0 } }, run .pending, (some .p25, ⟨85, 153⟩),
    [(some .p100, ⟨250, 450⟩), (some .p75, ⟨195, 351⟩), (some .p50, ⟨140, 252⟩)], ?_⟩
  simp only [Fits]
  decide

theorem witness_AdmissionDecides_close : ∃ s : State, s.con.roundTimer = .running 990000 ∧
    s.seq.trip = some (run .pending) ∧ (run .pending).phase = .pending ∧ s.seq.state ≠ .fallback ∧ s.seq.state ≠ .isolated :=
  ⟨withTrip (run .pending) (car .evacWait), by decide⟩

/-- A shed excess of 1, and one of 0 (R152, R153). -/
theorem witness_ShedSet : ∃ s : State, 0 < shedExcess s ∧ shedSet s ≠ [] :=
  ⟨{ withRecord (car .serviceIdle) with supply := { capHeld := 84 } }, by decide⟩

theorem witness_ShedSet_none : shedExcess { withRecord (car .serviceIdle) with supply := { capHeld := 85 } } = 0 := by
  decide

/-- A running car is sound, and so a premise of SoundKept and of PermitOnlyWhileRunning is met by more than reset. -/
theorem witness_Sound : ∃ s : State, Sound s ∧ s.supply.trn = .emergency ∧ s.seq.runp = true ∧
    step { s with pending := [.query] } = .next (after .query s) := by
  refine ⟨withTrip (run .running) { car .evacRun with seq := { (car .evacRun).seq with runp := true, spd := .p50 } },
    ⟨?_, ?_, ?_, ?_, ?_, ?_, ?_, ?_, ?_, ?_, ?_, ?_, ?_, ?_⟩, rfl, rfl, rfl⟩ <;>
    simp [withTrip, car, run, inReset, SeqState.driving, SeqState.tripless, SeqState.session, SeqState.runs, SeqState.opensRoster,
      tripIn, Attempt.serves]

/-- RESET held over a running car: the premise and the conclusion of the law of R132. -/
theorem witness_Sound_held : ∃ s : State, inReset s = true ∧ HeldInReset s ∧ s.pins.trn = .normal ∧ s.station = 21 :=
  ⟨after (.coldReset ⟨21, .asserted⟩) { car .evacRun with pins := {} }, by decide⟩

theorem witness_ReleaseFirst : ReleaseFirst (withAttempt (.waiting (.claim claimOfRun)) (car .evacWait)) := by
  intro _; rfl

theorem witness_SpokenWaits : SpokenWaits { car .evacWait with con := { spoken := true } } := by intro _; rfl

theorem witness_QueueBounded : QueueBounded (car .evacWait) := by decide

theorem witness_LineMessage : ∃ (m : Message) (u : LineUnit), m.valid ∧ u.active = false ∧ u.awaitingGap = false ∧
    u.level = .recessive ∧ u.others = .recessive ∧ u.transmitter = none ∧ u.follows = true ∧ u.coming = [] ∧
    u.readTo ≤ 1000000 :=
  ⟨{ station := 62, body := .claim { claimOfRun with draw := -32767, stamp := 65535 } }, (car .parked).line,
    by simp [Message.valid, Body.valid, drawField, stampValue, claimOfRun, Config.stampRing], by decide⟩

theorem recordA_accepted : FieldsAccepted recordA := by
  intro k h1 h2
  interval_cases k <;> (simp only [AcceptedValue]; decide)

theorem witness_ConfigureJudged : linkReady State.reset = true ∧ State.reset.seq.state = .unconfigured ∧
    recordA.length = 42 ∧ State.reset.station ≠ 0 ∧ State.reset.station ≠ 63 ∧ FieldsAccepted recordA ∧
    2 * recordValue recordA 20 ≤ recordValue recordA 23 ∧ State.reset.station ≤ recordValue recordA 13 :=
  ⟨by decide, by decide, by decide, by decide, by decide, recordA_accepted, by decide, by decide⟩

/-- UNCONFIGURED with the plant good and TRN at emergency: the other branch of R120. -/
theorem witness_ConfigureJudged_emergency :
    ({ car .parked with seq := {}, config := none } : State).supply.trn = .emergency ∧
      ({ car .parked with seq := {}, config := none } : State).supply.good = true ∧
      ({ car .parked with seq := {}, config := none } : State).station ≤ recordValue recordA 13 := by decide

/-- The refusals of R172 in their order: straps 63, a bad first field, a bad last one, a run limit of 61 s above half of W (field
20), a station above CENSUS. -/
theorem witness_ConfigureJudged_refused :
    ({ State.reset with station := 63 } : State).seq.state = .unconfigured ∧
      FirstBadIndex (39 :: recordA.drop 1) 1 ∧ FirstBadIndex (recordA.set 41 8) 32 ∧
      FieldsAccepted (recordA.set 27 61) ∧
      recordValue (recordA.set 27 61) 23 < 2 * recordValue (recordA.set 27 61) 20 ∧ recordValue recordA 13 < 62 ∧
      (car .parked).seq.state ≠ .unconfigured ∧ linkReady (car .parked) = true := by
  refine ⟨by decide, ⟨by decide, by decide, ?_, fun j h1 h2 => by omega⟩, ⟨by decide, by decide, ?_, fun j h1 h2 => ?_⟩,
    fun k h1 h2 => ?_, by decide, by decide, by decide, by decide⟩
  · simp only [AcceptedValue]; decide
  · simp only [AcceptedValue]; decide
  · interval_cases j <;> (simp only [AcceptedValue]; decide)
  · interval_cases k <;> (simp only [AcceptedValue]; decide)

theorem witness_ready : linkReady (car .parked) = true ∧ linkReady State.reset = true := by decide

/-- The times that QUERY reports while they run: the start window, the shed hold, the own window, the in-window time. -/
theorem witness_Query_times : ∃ s t u : State, linkReady s = true ∧ s.seq.state = .awaitSupply ∧
    s.seq.startWindow = .running 0 ∧ t.seq.shedHold = .timing 0 ∧ t.supply.inWindowTimer = .running 0 ∧
    t.seq.trip = some (run .pending) ∧ u.seq.state = .fallback ∧ linkReady u = true ∧ linkReady t = true :=
  ⟨{ car .awaitSupply with seq := { state := .awaitSupply, startWindow := .running 0 } },
    withTrip (run .pending) { car .evacWait with
      seq := { (car .evacWait).seq with shedHold := .timing 0 }
      supply := { (car .evacWait).supply with inWindowTimer := .running 0 } }, car .fallback, by decide⟩

theorem witness_ReadObserved : ∃ (s : State) (o : Observation), Taking s ∧ s.link.queue = [o] :=
  ⟨{ car .parked with link := { queue := [observationOf release7 false] } }, observationOf release7 false, by decide⟩

theorem witness_Restart : Taking (car .parked) ∧ (car .parked).pins.trn = .emergency ∧
    Taking { car .parked with pins := {} } := by decide

theorem witness_CarReport : Taking (car .assess) ∧ positionOf 1 = some .atLanding ∧ positionOf 3 = some .lost ∧
    (1 : Byte).toNat ≤ 1 ∧ (car .assess).seq.trip = none ∧ Taking (car .evacWait) ∧ (car .evacWait).seq.trip = none ∧
    Taking (withTrip (run .pending) (car .evacWait)) ∧ Taking (car .landed) ∧
    (after (.carReport 2 4 1 0) (withTrip (run .running) (car .evacRun))).seq.trip = some { run .running with cls := 1 } := by
  decide

/-- FALLBACK in the first half of the own window, outside it, with the landed mark set, and with a record (R160, R161). -/
theorem witness_CarReport_fallback : Taking (car .fallback) ∧ firstHalfOpen (car .fallback) = false ∧
    firstHalfOpen { car .fallback with now := 480000000 } = true ∧ (car .fallback).seq.landedMark = false ∧
    Taking { car .fallback with seq := { (car .fallback).seq with landedMark := true } } ∧
    Taking (withTrip (run .pending) (car .fallback)) := by decide

/-- The refusals of R125: position 0 and 4, occupancy 2, a reserved octet. -/
theorem witness_CarReport_refused : positionOf 0 = none ∧ positionOf 4 = none ∧ 1 < (2 : Byte).toNat ∧ (1 : Byte) ≠ 0 := by
  decide

theorem witness_TripRequest : Taking (car .evacWait) ∧ directionOf 2 = some .down ∧ (car .evacWait).seq.trip = none ∧
    (conf (car .evacWait)).unmaskRange = false ∧ Taking (car .serviceIdle) ∧ (car .serviceIdle).seq.lockout = false ∧
    Taking (car .fallback) ∧ (car .fallback).seq.trip = none ∧ (125 : Byte).toNat ≤ 125 ∧
    (conf { car .evacWait with config := some { cfg with unmaskRange := true } }).unmaskRange = true := by decide

/-- The refusals of R138, and a load of 126 with RANGE unmasked. -/
theorem witness_TripRequest_refused : Taking (car .isolated) ∧ Taking (car .parked) ∧
    Taking (withTrip (run .running) (car .evacRun)) ∧ Taking (withTrip (run .ending) (car .evacWait)) ∧
    Taking { car .serviceIdle with seq := { (car .serviceIdle).seq with lockout := true } } ∧ directionOf 0 = none ∧
    directionOf 4 = none ∧ 125 < (126 : Byte).toNat ∧
    (conf { car .evacWait with config := some { cfg with unmaskRange := true } }).unmaskRange = true := by decide

theorem witness_TripCancel : Taking (withTrip (run .armed) (car .evacWait)) ∧ namesTrip 3 (run .armed).id = true ∧
    (car .evacWait).seq.state.driving = true ∧ (car .evacWait).con.attempt.isSending .claim = false := by decide

/-- The refusals of R144 and the forms of FALLBACK (R160): no record, another trip's id, a running or pending record. -/
theorem witness_TripCancel_refused : Taking (car .isolated) ∧ Taking (car .evacWait) ∧ namesTrip 4 (run .pending).id = false ∧
    Taking (withTrip (run .running) (car .evacRun)) ∧ Taking (withTrip (run .ending) (car .landed)) ∧
    Taking (withTrip (run .pending) (car .fallback)) ∧ Taking (withTrip (run .running) (car .fallback)) := by decide

theorem witness_TripCancel_sending :
    (sending (.claim claimOfRun) (withTrip (run .armed) (car .evacWait))).con.attempt.isSending .claim = true ∧
      Taking (sending (.claim claimOfRun) (withTrip (run .armed) (car .evacWait))) := by decide

/-- A cancel just after the completion: of a run, of a run asked to shed, of a wake, of a trip that a shed has ended (R115). -/
theorem witness_TripCancel_completed :
    (∃ x, CompletedNow (justClaimed (run .armed) (withTrip (run .running) (car .evacRun))) 3 x ∧
      Taking (justClaimed (run .armed) (withTrip (run .running) (car .evacRun)))) ∧
    (∃ x, CompletedNow (justClaimed (serviceRun .armed 4) (withTrip (serviceRun .running 4) (car .shedPending))) 3 x) ∧
    (∃ x, CompletedNow (justClaimed { run .armed with figures := .wake ⟨25, 25⟩ } (car .landed)) 3 x ∧ x.purpose = .evacuation ∧
      x.prior = some { draw := 25, stamp := 1 }) ∧
    (∃ x, CompletedNow (justClaimed (serviceRun .armed 4) (car .parked)) 3 x) :=
  ⟨⟨_, ⟨by decide, rfl⟩, by decide⟩, ⟨_, by decide, rfl⟩, ⟨_, ⟨by decide, rfl⟩, rfl, rfl⟩, ⟨_, by decide, rfl⟩⟩

theorem test_tripCancel_completed :
    (after (.tripCancel 3) (justClaimed (run .armed) (withTrip (run .running) (car .evacRun)))).con.releaseSlot =
        some { reason := .cancelled, tripId := 3, draw := 25, stamp := 1 } ∧
      (after (.tripCancel 3) (justClaimed (run .armed) (withTrip (run .running) (car .evacRun)))).link.reason = .tooLate := by
  decide

theorem witness_TripEnd : Taking (withTrip (run .running) (car .evacRun)) ∧ (run .running).phase = .running ∧
    namesTrip 3 (run .running).id = true ∧ positionOf 2 = some .between ∧
    Taking (withTrip (serviceRun .running 4) (car .serviceRun)) ∧
    Taking (withTrip (serviceRun .running 4) (car .shedPending)) ∧ Taking (withTrip (run .running) (car .fallback)) := by
  decide

theorem witness_TripEnd_refused : Taking (car .isolated) ∧ (car .evacWait).seq.trip = none ∧
    (run .pending).phase ≠ .running ∧ namesTrip 2 (run .running).id = false ∧ (car .evacWait).seq.state.runs = false ∧
    (car .shedPending).seq.state.runs = true ∧ positionOf 0 = none := by decide

theorem witness_ServiceSelect : Taking (car .isolated) ∧ Taking (car .fallback) ∧ (0 : Byte).toNat ≤ 1 ∧
    Taking { car .landed with seq := { (car .landed).seq with lockout := true } } := by decide

theorem witness_CallEvent : Taking (car .serviceIdle) ∧ (conf (car .serviceIdle)).idleRestartMask.getLsbD 0 = true ∧
    (conf (car .serviceIdle)).idleRestartMask.getLsbD 3 = false ∧ Taking (car .parked) ∧
    (conf (car .parked)).wakeMask.getLsbD ((2 : Byte).toNat - 1) = false ∧ (0 : Byte).toNat = 0 ∧ 4 < (5 : Byte).toNat := by
  decide

/-- A wake accepted, and the three grounds of its refusal (R146). -/
theorem witness_Wake : Taking (car .parked) ∧ (conf (car .parked)).wakeMask.getLsbD 0 = true ∧
    (car .parked).seq.lockout = false ∧ (car .parked).seq.shedHold = .clear ∧ tripIn .ending (car .parked) = false ∧
    Taking { car .parked with seq := { (car .parked).seq with lockout := true } } ∧
    Taking { car .parked with seq := { (car .parked).seq with shedHold := .awaitDemand } } ∧
    tripIn .ending (withTrip (run .ending) (car .parked)) = true := by decide

theorem witness_LinkFrames : ({ car .parked with link := { receiver := .discarding 0 } } : State).link.receiver = .discarding 0 ∧
    (after .query (car .parked)).link.reply ≠ .none ∧ linkReady (after .query (car .parked)) = false ∧
    requestFrame .sense = some [0x03, 0x00, 0xFD] := by decide

/-- CLEAR-CONDITIONS and CALL-EVENT, the least and the greatest code that R171 does not take before a CONFIGURE. -/
theorem witness_LinkFrames_notConfigured : configured State.reset = false ∧ linkReady State.reset = true ∧
    requestFrame .clearConditions = some [0x04, 0x00, 0xFC] ∧
    requestFrame (.callEvent 2 0) = some [0x0D, 0x02, 0x02, 0x00, 0xEF] ∧ wellFormed (.callEvent 2 0) = true := by decide

/-- The same events while RESET is held. -/
theorem witness_held : inReset (after (.coldReset ⟨5, .asserted⟩) (car .parked)) = true ∧
    linkReady (after (.coldReset ⟨5, .asserted⟩) (car .parked)) = false := by decide

theorem witness_Contacts : ∃ s : State, inReset s = false ∧ TrnReading.emergency ≠ s.supply.trn ∧ s.supply.trnTimer = .stopped ∧
    GokReading.asserted ≠ s.supply.gok ∧ s.supply.gokTimer ≠ .stopped ∧ (3 : Fin 8) ≠ s.supply.capCode ∧
    s.supply.candidate = some 3 :=
  ⟨{ State.reset with supply := { gokTimer := .running 0, candidate := some 3, capTimer := .running 0 } }, by decide⟩

/-- A configured car under utility supply whose TRN contact has moved (R61). -/
def moved (duplicate : Bool) (supply : SupplyMonitor) : State :=
  { car .dormant with
    seq := { state := .dormant, duplicate := duplicate }, supply := { supply with trnTimer := .running 0, trn := .normal } }

theorem witness_Takeover : (moved false {}).supply.trnTimer = .running 0 ∧ (moved false {}).pins.trn = .emergency ∧
    (moved false {}).supply.good = false ∧ (moved true {}).seq.duplicate = true ∧
    (moved false (car .parked).supply).supply.good = true := by decide

theorem witness_Retransfer : ∃ s : State, s.seq.state.session = true ∧ s.supply.trnTimer = .running 0 ∧
    s.supply.trn = .emergency ∧ s.pins.trn = .normal :=
  ⟨{ car .evacRun with pins := {}, supply := { (car .evacRun).supply with trnTimer := .running 0 } }, by decide⟩

/-- A session that ends while a cancel reply waits and a shed is owed: accepted in DORMANT, state code 11 (R164). -/
theorem witness_Retransfer_held : ∃ s : State, s.seq.state.session = true ∧ s.supply.trnTimer = .running 0 ∧
    s.supply.trn = .emergency ∧ s.pins.trn = .normal ∧ s.link.reply = .held 3 ∧ s.seq.shedOwed = true ∧
    (after .trnDebounceExpiry s).link.reply = .sending (linkFrame 0x20 [11]) :=
  ⟨{ car .serviceWait with
      pins := {}, seq := { (car .serviceWait).seq with shedOwed := true }, link := { reply := .held 3 }
      supply := { (car .serviceWait).supply with trnTimer := .running 0 } }, by decide⟩

theorem witness_Gok_rise : ∃ s : State, s.supply.gokTimer = .running 0 ∧ s.seq.state = .awaitSupply ∧
    s.supply.gok = .negated ∧ s.pins.gok = .asserted ∧ s.supply.freqClass = .inWindow :=
  ⟨{ car .awaitSupply with supply := { gokTimer := .running 0, freqClass := .inWindow } }, by decide⟩

theorem witness_Gok_fall : ∃ s : State, s.supply.gokTimer = .running 0 ∧ s.seq.state.supplied = true ∧
    s.supply.gok = .asserted ∧ s.pins.gok = .negated ∧ s.supply.freqClass ≠ .absent :=
  ⟨{ car .fallback with pins := {}, supply := { (car .fallback).supply with gokTimer := .running 0 } }, by decide⟩

/-- A loss that finds a cancel reply waiting, and a change of GOK that raises no event. -/
theorem witness_Gok_others : ∃ s t : State, s.supply.gokTimer = .running 0 ∧ s.seq.state.supplied = true ∧
    s.supply.gok = .asserted ∧ s.pins.gok = .negated ∧ s.supply.freqClass ≠ .absent ∧ s.link.reply = .held 3 ∧
    t.supply.gokTimer = .running 0 ∧ t.seq.state = .isolated ∧ t.supply.gok = .asserted ∧ t.pins.gok = .negated :=
  ⟨{ car .evacWait with
      pins := {}, link := { reply := .held 3 }, supply := { (car .evacWait).supply with gokTimer := .running 0 } },
    { car .isolated with pins := {}, supply := { (car .isolated).supply with gokTimer := .running 0 } }, by decide⟩

theorem witness_Cap : ∃ s : State, configured s = true ∧ s.supply.candidate = some 7 ∧ s.supply.capTimer = .running 0 :=
  ⟨{ car .parked with supply := { candidate := some 7, capTimer := .running 0 } }, by decide⟩

/-- Station 5 draws 2000 for service, CAP falls to code 1 (Cap 1200), and its draw is the newest on the plant. -/
def shedding (st : SeqState) : State :=
  { car st with
    seq := { (car st).seq with commitment := 2000, claimClass := 4, stamp := 0 }
    supply := { (car st).supply with candidate := some 1, capTimer := .running 0 } }

/-- A fall of Cap finds the own station in the shed set, in each state that R154 to R156 name. -/
theorem witness_Cap_sheds : ∀ st ∈ [SeqState.serviceIdle, .serviceWait, .serviceRun, .assess, .evacWait, .landed],
    ∃ m, (after .capDebounceExpiry (shedding st)).supply = m ∧ m.capHeld < (shedding st).supply.capHeld ∧
      (shedSet { shedding st with supply := m }).map Entry.station = [5] ∧ (shedding st).seq.state.driving = true := by
  intro st hst
  refine ⟨_, rfl, ?_⟩
  revert st
  decide

/-- An evacuation draw is no candidate (R153): the own station is not shed. -/
theorem witness_Cap_keeps : ∀ e ∈ shedSet { withRecord (car .evacWait) with
    seq := { (car .evacWait).seq with commitment := 4000, claimClass := 2 } }, e.station ≠ (car .evacWait).station := by
  decide

/-- A CLAIM that waits for its slot, its record ARMED. -/
def waitingClaim : State := withAttempt (.waiting (.claim claimOfRun)) (withTrip (run .armed) (car .evacWait))

/-- The record of an abandoned CLAIM is PENDING with no step (R110, R111, R135): at a rise of Cap, at a fall that sheds nothing, and
at a rise outside the driving states. -/
theorem witness_Cap_abandons : ∃ s t u : State,
    s.con.attempt.isWaiting .claim = true ∧ s.seq.trip = some (run .armed) ∧ s.supply.candidate = some 7 ∧
    (after .capDebounceExpiry s).seq.trip = some (run .pending) ∧
    s.supply.capHeld < (after .capDebounceExpiry s).supply.capHeld ∧
    t.con.attempt.isWaiting .claim = true ∧ (after .capDebounceExpiry t).supply.capHeld < t.supply.capHeld ∧
    shedSet { t with supply := (after .capDebounceExpiry t).supply } = [] ∧
    (after .capDebounceExpiry t).seq.trip = some (run .pending) ∧
    u.seq.state.driving = false ∧ (after .capDebounceExpiry u).supply.capHeld < u.supply.capHeld :=
  ⟨{ waitingClaim with supply := { waitingClaim.supply with candidate := some 7, capTimer := .running 0 } },
    { waitingClaim with supply := { waitingClaim.supply with candidate := some 1, capTimer := .running 0 } },
    { car .fallback with supply := { (car .fallback).supply with candidate := some 1, capTimer := .running 0 } }, by decide⟩

theorem witness_Pulse : ∃ s t : State, inReset s = false ∧ inReset t = false ∧ s.supply.train = none ∧ t.supply.train = some 0 ∧ 0 < 100000 ∧
    classifyPeriod (nominalFrequency t) 100000 = .under :=
  ⟨State.reset, { State.reset with supply := { train := some 0 } }, by decide⟩

/-- The other forms of a pulse (R66, R68, R72): the class leaves the window while a CLAIM waits, it becomes UNDER in a supplied state,
supply good rises while the session waits, and the pulse comes too late, in a supplied state and in a waiting one. -/
theorem witness_Pulse_classes : ∃ s t u : State, inReset s = false ∧ inReset t = false ∧ inReset u = false ∧ s.supply.train = some 980000 ∧
    s.con.attempt.isWaiting .claim = true ∧ (after (.fsnPulse 21000) s).supply.freqClass = .offWindow ∧
    (after (.fsnPulse 21000) s).seq.trip = some (run .pending) ∧
    (after (.fsnPulse 22000) s).supply.underTimer = .running 1002000 ∧ s.seq.state.supplied = true ∧
    t.seq.state = .noSupply ∧ t.supply.gok = .asserted ∧ t.supply.freqClass ≠ .inWindow ∧
    t.supply.train = some 980000 ∧ (after (.fsnPulse 20000) t).supply.freqClass = .inWindow ∧
    (after (.fsnPulse 20000) t).seq.state = .joining ∧
    (after (.fsnPulse 100001) s).seq.state = .awaitSupply ∧ u.supply.train = some 0 ∧ u.supply.freqClass ≠ .absent ∧
    u.seq.state.supplied = false :=
  ⟨{ waitingClaim with supply := { waitingClaim.supply with train := some 980000 } },
    { car .noSupply with supply := { gok := .asserted, train := some 980000 }, roster := {} },
    { car .isolated with supply := { (car .isolated).supply with train := some 0 } }, by decide⟩

theorem witness_Absence : ∃ s : State, s.supply.absenceTimer = .running 0 ∧ s.seq.state.supplied = true ∧
    s.supply.gok = .asserted ∧ s.supply.freqClass ≠ .absent :=
  ⟨{ car .joining with supply := { (car .joining).supply with absenceTimer := .running 0 } }, by decide⟩

/-- Absence outside the supplied states, with GOK negated, after a single pulse, and while a cancel reply waits (R66, R69, R164). -/
theorem witness_Absence_others : ∃ s t u v : State,
    (s.supply.absenceTimer = .running 0 ∧ s.supply.freqClass ≠ .absent ∧ s.seq.state.supplied = false) ∧
    (t.supply.absenceTimer = .running 0 ∧ t.supply.freqClass ≠ .absent ∧ t.supply.gok = .negated ∧
      t.seq.state.supplied = true) ∧
    (u.supply.absenceTimer = .running 0 ∧ u.supply.freqClass = .absent) ∧
    (v.supply.absenceTimer = .running 0 ∧ v.supply.freqClass ≠ .absent ∧ v.supply.gok = .asserted ∧
      v.seq.state.supplied = true ∧ v.link.reply = .held 3 ∧ v.seq.shedOwed = true) :=
  ⟨{ car .isolated with supply := { (car .isolated).supply with absenceTimer := .running 0 } },
    { waitingClaim with supply := { waitingClaim.supply with absenceTimer := .running 0, gok := .negated } },
    { State.reset with supply := { train := some 0, absenceTimer := .running 0 } },
    { car .serviceWait with
      link := { reply := .held 3 }, seq := { (car .serviceWait).seq with shedOwed := true }
      supply := { (car .serviceWait).supply with absenceTimer := .running 0 } }, by decide⟩

theorem witness_Pacing : ∃ a b c : State,
    (a.supply.inWindowTimer = .running 0 ∧ a.supply.inWindowHalf = false) ∧ b.supply.settle = .running 0 ∧
      c.supply.holdTimer = .running 0 :=
  ⟨{ car .parked with supply := { inWindowTimer := .running 0 } }, { car .parked with supply := { settle := .running 0 } },
    { car .parked with supply := { holdTimer := .running 0 } }, by decide⟩

/-- Settled for service rises while a CLAIM waits (R74, R75, R111). -/
theorem witness_Pacing_abandons : ∃ s : State, s.supply.holdTimer = .running 0 ∧ s.con.attempt.isWaiting .claim = true ∧
    ({ s.supply with holdTimer := .stopped } : SupplyMonitor).settledService ≠ s.supply.settledService ∧
    (after .capacityHoldExpiry s).seq.trip = some (run .pending) :=
  ⟨{ waitingClaim with supply := { waitingClaim.supply with holdTimer := .running 0 } }, by decide⟩

theorem witness_Under : ∃ s : State, configured s = true ∧ s.supply.underTimer = .running 0 ∧ s.supply.episodeMark = false :=
  ⟨{ car .parked with supply := { underTimer := .running 0 } }, by decide⟩

/-- A derate that sheds the own car, one that only abandons a CLAIM, and one outside the driving states (R70, R72). -/
theorem witness_Under_falls : ∃ s t u : State,
    (s.supply.underTimer = .running 0 ∧ s.supply.episodeMark = false ∧ s.seq.state.driving = true ∧
      (after .underTimerExpiry s).supply.capHeld < s.supply.capHeld ∧
      (shedSet { s with supply := (after .underTimerExpiry s).supply }).map Entry.station = [5]) ∧
    ((after .underTimerExpiry t).supply.capHeld < t.supply.capHeld ∧ t.con.attempt.isWaiting .claim = true ∧
      shedSet { t with supply := (after .underTimerExpiry t).supply } = []) ∧
    ((after .underTimerExpiry u).supply.capHeld < u.supply.capHeld ∧ u.seq.state.driving = false) :=
  ⟨{ shedding .serviceRun with supply := { (shedding .serviceRun).supply with underTimer := .running 0 } },
    { waitingClaim with supply := { waitingClaim.supply with underTimer := .running 0 } },
    { car .fallback with supply := { (car .fallback).supply with underTimer := .running 0 } }, by decide⟩

theorem witness_Activity : inReset (car .parked) = false ∧ (car .parked).line.active = false ∧ (car .parked).line.awaitingGap = false ∧
    (car .parked).line.level = .recessive ∧ (car .parked).line.transmitter = none ∧
    (car .parked).line.readTo ≤ (car .parked).now ∧ State.reset.line.awaitingGap = true ∧
    State.reset.line.level = .recessive := by decide

/-- A CLAIM that waits when the line goes dominant, or when its slot finds the line dominant (R110, R135). -/
theorem witness_Activity_abandons : ∃ s t : State, inReset s = false ∧ inReset t = false ∧ s.line.active = false ∧ s.line.awaitingGap = false ∧
    s.line.level = .recessive ∧ s.line.transmitter = none ∧ s.line.readTo ≤ s.now ∧
    s.con.attempt.isWaiting .claim = true ∧ s.seq.trip = some (run .armed) ∧
    (after .lineActivityStart s).seq.trip = some (run .pending) ∧ t.con.attempt = .waiting (.claim claimOfRun) ∧
    t.con.slotDeadline = some 0 ∧ t.line.level = .dominant ∧ (after .slotExpiry t).seq.trip = some (run .pending) :=
  ⟨waitingClaim, { waitingClaim with
      line := { others := .dominant, level := .dominant, awaitingGap := false }
      con := { waitingClaim.con with slotDeadline := some 0 } }, by decide⟩

/-- The two changes of the line within an activity (R82, R83). -/
theorem witness_Activity_changes : ∃ (u v : LineUnit) (c d : LineChange), u.transmitter = none ∧
    u.readTo ≤ u.startedAt + c.after ∧ u.level = .dominant ∧ c.level = .recessive ∧ u.active = true ∧
    v.transmitter = none ∧ v.readTo ≤ v.startedAt + d.after ∧ v.level = .recessive ∧ d.level = .dominant :=
  ⟨(active (car .parked)).line, (car .parked).line, ⟨0, .recessive⟩, ⟨0, .dominant⟩, by decide⟩

/-- An edge of the activity at the very instant of the base gap, after the stop bit; one later; and the waits for the first base
gap on a recessive line, a dominant one, and a dominant one told to become recessive (R82, R98). -/
theorem witness_Activity_edges : ∃ (s t u v w : State) (o : OctetInHand) (c : LineChange),
    (inReset s = false ∧ s.line.active = true ∧ s.line.transmitter = none ∧ s.line.coming = [] ∧ s.line.level = .recessive ∧
      s.line.readTo ≤ s.now ∧ s.line.startedAt ≤ s.now ∧ s.line.inHand = some o ∧ o.bits.length ≤ 8 ∧
      o.start + 110 ≤ s.now ∧ s.now = s.line.changedAt + 120) ∧
    (inReset t = false ∧ t.line.active = true ∧ t.line.awaitingGap = false ∧ t.line.transmitter = none ∧ t.line.coming = [] ∧
      t.line.level = .recessive ∧ t.line.readTo ≤ t.now ∧ t.line.changedAt + 120 + 1 = t.now) ∧
    (inReset u = false ∧ u.line.awaitingGap = true ∧ u.line.coming = [] ∧ u.line.level = .recessive) ∧
    (inReset v = false ∧ v.line.awaitingGap = true ∧ v.line.coming = [] ∧ v.line.level = .dominant) ∧
    (inReset w = false ∧ w.line.awaitingGap = true ∧ w.line.active = false ∧ w.line.transmitter = none ∧ w.line.coming = [c] ∧
      w.line.level = .dominant ∧ c.level = .recessive ∧ w.line.readTo ≤ w.line.startedAt + c.after) :=
  ⟨{ toldOctet 1000210 with line := (toldOctet 1000210).line.readOn 1000210 },
    { toldOctet 1000211 with line := (toldOctet 1000211).line.readOn 1000211 }, State.reset, heldAtReset,
    after (.endOfActivity [⟨500, .recessive⟩]) heldAtReset,
    { start := 1000000, bits := [false, false, true, true, true, false, false, false] }, ⟨500, .recessive⟩, by decide⟩

theorem witness_LongDominant : (active (car .parked)).line.longTimer = .running 1000000 ∧
    (active (car .parked)).line.transmitter = none ∧ configured (active (car .parked)) = true ∧
    (active (car .parked)).line.coming = [] ∧ (car .parked).line.coming = [] ∧ (car .parked).line.longTimer = .stopped := by decide

theorem witness_RoundCloses : ∃ (s : State) (r : Release), s.con.roundTimer = .running 990000 ∧ s.con.releaseSlot = some r ∧
    s.con.attempt = .none ∧ s.seq.state.driving = true :=
  ⟨{ car .parked with con := { (car .parked).con with releaseSlot := some { reason := .park, tripId := 0, draw := 0, stamp := 0 } } },
    _, rfl, rfl, rfl, rfl⟩

/-- The choice of a due PRESENCE: with no claim posted, with one that must wait for headroom, and with one whose trip is too large
for the plant; and nothing due. -/
theorem witness_RoundCloses_presence : ∃ s t u v : State,
    (s.con.roundTimer = .running 990000 ∧ s.con.releaseSlot = none ∧ s.con.attempt = .none ∧
      s.seq.state.driving = true ∧ s.con.claimSlot = none ∧ s.con.presenceDue = true ∧ s.seq.trip = none) ∧
    (t.con.claimSlot ≠ none ∧ t.con.presenceDue = true ∧ t.seq.trip = some (run .pending) ∧
      (decideTrip t (run .pending)).outcome = .waitSettle) ∧
    (u.con.claimSlot ≠ none ∧ u.con.presenceDue = true ∧ u.seq.trip = some (run .pending) ∧
      (decideTrip u (run .pending)).outcome = .exceeds) ∧
    (v.con.roundTimer = .running 990000 ∧ v.con.presenceDue = false ∧ v.seq.state.driving = true) :=
  ⟨{ car .parked with con := { (car .parked).con with presenceDue := true } },
    withTrip (run .pending) { car .evacWait with
      supply := { (car .evacWait).supply with settle := .stopped }
      con := { (car .evacWait).con with presenceDue := true, claimSlot := some { kind := .run, tripId := 3 } } },
    withTrip (run .pending) { car .evacWait with
      supply := { (car .evacWait).supply with capCode := 0 }
      con := { (car .evacWait).con with presenceDue := true, claimSlot := some { kind := .run, tripId := 3 } } },
    car .parked, by decide⟩

theorem witness_ClaimChosen : ∃ s : State, s.con.roundTimer = .running 990000 ∧ s.con.attempt = .none ∧
    s.seq.state.driving = true ∧ s.con.releaseSlot = none ∧ s.con.claimSlot = some { kind := .run, tripId := 3 } ∧
    s.seq.trip = some (run .pending) ∧
    decideTrip s (run .pending) = { outcome := .admitted, offer := some (some .p100, ⟨250, 450⟩) } :=
  ⟨withTrip (run .pending) { car .evacWait with
    con := { (car .evacWait).con with claimSlot := some { kind := .run, tripId := 3 } } }, by decide⟩

theorem witness_Slot : ∃ s t : State, s.con.attempt = .waiting release7.body ∧ s.con.slotDeadline = some 1000220 ∧
    s.line.level = .recessive ∧ s.line.others = .recessive ∧ s.line.active = false ∧ s.line.awaitingGap = false ∧
    s.seq.state.driving = true ∧ t.con.attempt = .waiting release7.body ∧ t.con.slotDeadline = some 1000220 ∧
    t.line.level = .dominant :=
  ⟨{ car .parked with con := { attempt := .waiting release7.body, slotDeadline := some 1000220 } },
    { car .parked with
      con := { attempt := .waiting release7.body, slotDeadline := some 1000220 }
      line := { others := .dominant, level := .dominant } }, by decide⟩

set_option maxRecDepth 20000 in
/-- A line that never followed the driver fails the attempt at its first bit, with the failure count at its limit (R86, R158). -/
theorem witness_AttemptFails : ∃ (s : State) (x : Sending), s.line.transmitter = some x ∧
    s.con.attempt = .sending release7.body ∧ s.seq.state.driving = true ∧ s.line.firstMismatch x = some 0 ∧
    s.con.failures = 7 :=
  ⟨{ car .parked with
      con := { attempt := .sending release7.body, failures := 7 }
      line := { (car .parked).line with follows := false }.begin (outgoing release7.body (car .parked)) },
    outgoing release7.body (car .parked), by decide⟩

set_option maxRecDepth 20000 in
/-- A line that ceases to follow, no bit reading back otherwise so far. -/
theorem witness_AttemptFails_unfollowed : ∃ (s : State) (x : Sending), s.line.transmitter = some x ∧
    s.con.attempt = .sending release7.body ∧ s.seq.state.driving = true ∧ s.line.firstMismatch x = none ∧
    s.now < x.startedAt + 100 * x.octets.length :=
  ⟨sending release7.body (car .parked), outgoing release7.body (car .parked), by decide⟩

set_option maxRecDepth 20000 in
/-- Another station pulls the line in the middle of the last stop bit of a message of nine octets, the earliest
instant that joins it (R87). -/
theorem witness_AttemptFails_joined : ∃ (s : State) (x : Sending) (before rest : List LineChange) (c : LineChange),
    s.line.transmitter = some x ∧ s.con.attempt = .sending release7.body ∧ s.seq.state.driving = true ∧
    s.line.coming = before ++ c :: rest ∧ c.level = .dominant ∧ x.endsAt ≤ s.line.instant c + 5 ∧
    (∀ d ∈ before, s.line.instant d + 5 < x.endsAt) ∧ GapFree s.line (before ++ [c]) :=
  ⟨tell [⟨895, .dominant⟩] (sending release7.body (car .parked)), outgoing release7.body (car .parked), [], [],
    ⟨895, .dominant⟩, by decide, rfl, by decide, rfl, rfl, by decide, by decide, .inr (by decide), trivial⟩

theorem witness_AttemptFails_claim : ∃ (s t : State) (c : Claim), s.con.attempt = .sending (.claim c) ∧
    s.seq.trip = some (run .armed) ∧ s.con.failures < 7 ∧ s.con.withdrawn = false ∧
    t.con.attempt = .sending (.claim c) ∧ t.seq.trip = some (run .armed) ∧ t.con.failures < 7 ∧ t.con.withdrawn = true ∧
    t.seq.shedOwed = true ∧ t.link.reply = .held 3 :=
  ⟨sending (.claim claimOfRun) (withTrip (run .armed) (car .evacWait)),
    { sending (.claim claimOfRun) (withTrip (run .armed) (car .serviceWait)) with
      con := { attempt := .sending (.claim claimOfRun), withdrawn := true }
      seq := { (car .serviceWait).seq with trip := some (run .armed), shedOwed := true }
      link := { reply := .held 3 } }, claimOfRun, by decide⟩

set_option maxRecDepth 20000 in
/-- The eighth failure in a row while a cancel reply waits for the withdrawn CLAIM: accepted before the entry to FALLBACK, with the code
of EVAC_WAIT (R115, R144, R164). -/
theorem witness_AttemptFails_eighth : ∃ s : State, s.con.attempt = .sending (.claim claimOfRun) ∧ s.con.failures = 7 ∧
    s.con.withdrawn = true ∧ s.seq.trip = some (run .armed) ∧ s.link.reply = .held 3 ∧ s.seq.state.driving = true ∧
    (after .readbackMismatch s).seq.state = .fallback ∧
    (after .readbackMismatch s).link.reply = .sending (linkFrame 0x20 [3]) :=
  ⟨{ sending (.claim claimOfRun) (withTrip (run .armed) (car .evacWait)) with
      con := { attempt := .sending (.claim claimOfRun), withdrawn := true, failures := 7 }
      link := { reply := .held 3 } }, by decide⟩

/-- The own message of this body completes at the end of the activity, the line told nothing. -/
def completes (b : Body) (s : State) : Bool :=
  match (sending b s).line.recognised [] with
  | some (_, u) => completesOwn u (outgoing b s)
  | none => false

theorem completes_spec {b : Body} {s : State} (h : completes b s = true) : ∃ reference u,
    (sending b s).line.recognised [] = some (reference, u) ∧ completesOwn u (outgoing b s) = true := by
  unfold completes at h
  split at h
  · rename_i r u e
    exact ⟨r, u, e, h⟩
  · cases h

set_option maxRecDepth 20000 in
theorem witness_OwnMessage : ∃ (s : State) (changes : List LineChange) (reference : Nat) (u : LineUnit) (y : Sending),
    s.line.active = true ∧ s.line.transmitter = some y ∧ s.con.attempt = .sending (.claim claimOfRun) ∧
    s.seq.state.driving = true ∧ s.line.recognised changes = some (reference, u) ∧ completesOwn u y = true ∧
    s.seq.trip = some (run .armed) ∧ (run .armed).cancel = false ∧ s.con.withdrawn = false ∧
    (run .armed).step = some .p50 ∧ 0 < claimOfRun.start ∧ s.supply.settle ≠ .stopped := by
  obtain ⟨r, u, h⟩ := completes_spec (b := .claim claimOfRun) (s := withTrip (run .armed) (car .evacWait)) (by decide)
  exact ⟨_, [], r, u, outgoing (.claim claimOfRun) (withTrip (run .armed) (car .evacWait)), by decide, rfl, rfl, rfl, h.1,
    h.2, rfl, rfl, rfl, rfl, by decide, by decide⟩

set_option maxRecDepth 20000 in
/-- The other messages, and a CLAIM whose trip has been cancelled with a standing held (R142, R144). -/
theorem witness_OwnMessage_others :
    completes release7.body (withTrip (run .ending) (car .landed)) = true ∧
      completes presence9.body (car .parked) = true ∧
      completes (.claim claimOfRun)
        (withTrip { run .armed with cancel := true, prior := some { draw := 25, stamp := 1 } } (car .evacWait)) = true := by
  decide

set_option maxRecDepth 20000 in
/-- A CLAIM that an owed shed withdrew while it was SENDING, with no TRIP-CANCEL and so no standing kept (R155). -/
theorem witness_OwnMessage_shedOwed : ∃ (s : State) (reference : Nat) (u : LineUnit) (y : Sending) (x : Trip),
    s.line.active = true ∧ s.line.transmitter = some y ∧ s.con.attempt = .sending (.claim claimOfRun) ∧
    s.seq.state = .serviceWait ∧ s.line.recognised [] = some (reference, u) ∧ completesOwn u y = true ∧
    s.seq.trip = some x ∧ x.cancel = true ∧ x.prior = none ∧ s.seq.shedOwed = true ∧ s.con.withdrawn = true := by
  obtain ⟨r, u, h⟩ := completes_spec (b := .claim claimOfRun)
    (s := oweShed (withAttempt (.sending (.claim claimOfRun)) (withTrip (serviceRun .armed 4) (car .serviceWait)))) (by decide)
  exact ⟨_, r, u, _, _, by decide, rfl, rfl, rfl, h.1, h.2, rfl, rfl, rfl, rfl, rfl⟩

/-- A wake trip on its way, from EVAC_WAIT to LANDED or from SERVICE_WAIT to SERVICE_IDLE (R145, R147). -/
theorem witness_OwnMessage_wake : ∃ (s : State) (x : Trip) (f : StepFigures), s.seq.trip = some x ∧ x.cancel = false ∧
    s.con.withdrawn = false ∧ x.figures = .wake f ∧ x.purpose = .service ∧
    ∀ r ∈ s.roster.records, floored 1 r.stamp = r.stamp :=
  ⟨withTrip { serviceRun .armed 4 with figures := .wake ⟨25, 25⟩, origin := .parked } (withRecord (car .serviceWait)), _, _,
    rfl, rfl, rfl, rfl, rfl, by decide⟩

theorem witness_Waiting : ∃ s t : State, s.seq.state = .awaitSupply ∧ s.seq.startWindow = .running 0 ∧
    s.supply.good = false ∧ t.seq.state = .joining ∧ t.seq.joinTimer = .running 0 ∧ t.seq.trip = none ∧
    t.seq.report.fresh = true ∧ t.seq.report.position = .atLanding :=
  ⟨{ car .awaitSupply with seq := { state := .awaitSupply, startWindow := .running 0 }, supply := {} },
    { car .joining with seq := { state := .joining, joinTimer := .running 0, report := { position := .atLanding, fresh := true } } },
    by decide⟩

theorem witness_Classes : ∃ s t : State, s.seq.occupancyHold = .running 0 ∧ s.seq.trip = some (run .pending) ∧
    t.seq.agingTimer = .running 0 ∧ t.seq.trip = some (serviceRun .armed 4) :=
  ⟨withTrip (run .pending) { car .evacWait with seq := { occupancyHold := .running 0 } },
    withTrip (serviceRun .armed 4) { car .serviceWait with seq := { agingTimer := .running 0 } }, by decide⟩

theorem witness_RunLimit : ∃ s t : State, s.seq.trip = some (run .running) ∧ s.seq.runTimer = .running 0 ∧
    s.seq.state = .shedPending ∧ t.seq.trip = some (run .running) ∧ t.seq.runTimer = .running 0 ∧ t.seq.state = .fallback :=
  ⟨withTrip (run .running) { car .shedPending with seq := { state := .shedPending, runTimer := .running 0 } },
    withTrip (run .running) { car .fallback with seq := { state := .fallback, runTimer := .running 0 } }, by decide⟩

theorem witness_DwellIdle : ∃ s t : State, s.seq.state = .landed ∧ s.seq.dwellTimer = .running 0 ∧
    s.seq.serviceSelected = true ∧ s.seq.lockout = false ∧ t.seq.state = .serviceIdle ∧ t.seq.idleTimer = .running 0 :=
  ⟨{ car .landed with seq := { state := .landed, dwellTimer := .running 0, serviceSelected := true } },
    { car .serviceIdle with seq := { state := .serviceIdle, idleTimer := .running 0 } }, by decide⟩

theorem witness_Patience : ∃ s : State, s.adm.patience = .running 0 ∧ s.seq.trip = some (run .pending) ∧
    s.seq.state.driving = true ∧ s.adm.ownDemand = none :=
  ⟨withTrip (run .pending) { car .evacWait with adm := { patience := .running 0 } }, by decide⟩

theorem witness_ShedHold : ∃ s : State, s.seq.shedHold = .timing 0 ∧ ∀ r ∈ s.roster.records, r.demand = none :=
  ⟨{ withRecord (car .parked) with seq := { shedHold := .timing 0 } }, by decide⟩

/-- Station 5 with a window of 120 s in a census of 12: before its window, at its opening, at the close of the first half, just
after it, and at the end of the window. -/
theorem witness_Fallback : ∃ s : State, s.seq.state = .fallback ∧ s.seq.trip = some (run .pending) ∧
    (conf s).window * 1000000 = 120000000 ∧ (conf s).census = 12 ∧ (s.station - 1) * 120000000 = 480000000 ∧
    s.seq.sessionOrigin = some 0 ∧ tripIn .running s = false ∧
    (∀ n ∈ [1000000, 480000000, 540000000, 540000001, 599999999, 600000000],
      ({ s with now := n }.now - 0) % (12 * 120000000) = n) :=
  ⟨withTrip (run .pending) (car .fallback), by decide⟩

end Sys2Proof.Tests
end

section
/-!
The trip figures (R5 to R9) and the declared maxima (R13, R14): each figure by the sign of the demand, its growth with
imbalance and step, its bounds, and from these the obligations O4 to O8.
-/

namespace Sys2Proof.Machine

/-! ### Division rounded up (00_scope Conventions) -/

/-- A ceiling is at most q exactly when q times the divisor covers the dividend. -/
theorem ceilDiv_le_iff {a b q : Nat} (hb : 0 < b) : ceilDiv a b ≤ q ↔ a ≤ b * q := ceilDiv_le_iff_le_mul hb

theorem le_mul_ceilDiv (a : Nat) {b : Nat} (hb : 0 < b) : a ≤ b * ceilDiv a b := (ceilDiv_le_iff hb).mp le_rfl

theorem mul_ceilDiv_lt (a : Nat) {b : Nat} (hb : 0 < b) : b * ceilDiv a b < a + b := by
  have h : b * ((a + b - 1) / b) ≤ a + b - 1 := Nat.mul_div_le ..
  simp only [ceilDiv]
  omega

theorem ceilDiv_mono {a a' : Nat} (h : a ≤ a') {b : Nat} (hb : 0 < b) : ceilDiv a b ≤ ceilDiv a' b :=
  (ceilDiv_le_iff hb).mpr (h.trans (le_mul_ceilDiv a' hb))

/-! ### The steps -/

theorem SpeedStep.percent_bounds (v : SpeedStep) : 25 ≤ v.percent ∧ v.percent ≤ 100 := by
  cases v <;> decide

/-! ### The steady draw by the sign of the demand (R6 to R8) -/

/-- What the imbalance of a motoring trip draws beside LOSS (R6). -/
def imbalanceDraw (c : Configuration) (m v : Nat) : Nat := ceilDiv (c.full * m * v) 10000

theorem steadyDraw_motoring (c : Configuration) {d : Int} (v : Nat) (h : 0 < d) :
    steadyDraw c d v = (c.loss + imbalanceDraw c d.toNat v : Nat) := by
  simp [steadyDraw, imbalanceDraw, h]

theorem steadyDraw_level (c : Configuration) (v : Nat) : steadyDraw c 0 v = (c.loss : Int) := rfl

theorem steadyDraw_regenerating (c : Configuration) {d : Int} (v : Nat) (h : d < 0) :
    steadyDraw c d v = (c.loss : Int) - returnedPower c (-d).toNat v := by
  have hp : ¬ 0 < d := by omega
  simp [steadyDraw, hp, h.ne]

theorem startStep_motoring (c : Configuration) {d : Int} (v : Nat) (h : 0 < d) :
    startStep c d v = ceilDiv ((c.loss + imbalanceDraw c d.toNat v) * c.start) 100 := by
  simp only [startStep, h, steadyDraw_motoring, if_true, Int.toNat_natCast]

theorem startStep_other (c : Configuration) {d : Int} (v : Nat) (h : d ≤ 0) :
    startStep c d v = ceilDiv (c.loss * c.start) 100 := by
  simp [startStep, not_lt.mpr h]

/-! ### Bounds of the draws and returns -/

theorem imbalanceDraw_mono (c : Configuration) (m : Nat) {v w : Nat} (h : v ≤ w) :
    imbalanceDraw c m v ≤ imbalanceDraw c m w := ceilDiv_mono (Nat.mul_le_mul_left _ h) (by decide)

theorem imbalanceDraw_pos (c : Configuration) {m v : Nat} (hf : 0 < c.full) (hm : 0 < m) (hv : 0 < v) :
    0 < imbalanceDraw c m v := by
  have hp : 0 < c.full * m * v := by positivity
  have hq : c.full * m * v ≤ 10000 * imbalanceDraw c m v := le_mul_ceilDiv _ (by decide)
  omega

/-- No imbalance draws more than FULL at 100 % of an imbalance of 85 (R15). -/
theorem imbalanceDraw_le (c : Configuration) {m v : Nat} (hf : c.full ≤ 2000) (hm : m ≤ 85) (hv : v ≤ 100) :
    imbalanceDraw c m v ≤ 1700 := by
  have hp : c.full * m * v ≤ 2000 * 85 * 100 := by gcongr
  exact (ceilDiv_le_iff (by decide)).mpr (by omega)

theorem returnedPower_mono (c : Configuration) (m : Nat) {v w : Nat} (h : v ≤ w) :
    returnedPower c m v ≤ returnedPower c m w := by
  unfold returnedPower; gcongr

/-- No trip returns more than 1530 (R15). -/
theorem returnedPower_le (c : Configuration) {m v : Nat} (hf : c.full ≤ 2000) (hm : m ≤ 85) (hv : v ≤ 100)
    (hr : c.rgs ≤ 90) : returnedPower c m v ≤ 1530 := by
  have hp : c.full * m * v * c.rgs ≤ 2000 * 85 * 100 * 90 := by gcongr
  unfold returnedPower; omega

/-! ### The declared maxima (R13) -/

/-- With BAL at most 55 the largest imbalance is that of the fullest car going up. -/
theorem largestImbalance_eq (c : Configuration) (h : c.bal ≤ 55) : largestImbalance c = 125 - c.bal := by
  unfold largestImbalance; omega

/-- No accepted load gives a larger imbalance than D* (R14). -/
theorem signedDemand_bounds {bal load : Nat} (dir : Direction) (hb : bal ≤ 55) (hl : load ≤ 125) :
    signedDemand bal load dir ≤ ((125 - bal : Nat) : Int) ∧ -((125 - bal : Nat) : Int) ≤ signedDemand bal load dir := by
  cases dir <;> simp only [signedDemand] <;> omega

/-- The draw of an imbalance at any step is at most that of D* at 100 (R13, R14). -/
theorem imbalanceDraw_le_declared (c : Configuration) {m v : Nat} (hm : m ≤ largestImbalance c) (hv : v ≤ 100) :
    c.loss + imbalanceDraw c m v ≤ declaredDmax c := by
  have hp : c.full * m * v ≤ c.full * largestImbalance c * 100 := by gcongr
  have hq := le_mul_ceilDiv (c.full * largestImbalance c) (b := 100) (by decide)
  have hd : imbalanceDraw c m v ≤ ceilDiv (c.full * largestImbalance c) 100 :=
    (ceilDiv_le_iff (by decide)).mpr (by omega)
  unfold declaredDmax; omega

/-- The return of an imbalance at any step, LOSS off it, is at most that of D* at 100 (R13, R14). -/
theorem returnedPower_le_declared (c : Configuration) {m v : Nat} (hm : m ≤ largestImbalance c) (hv : v ≤ 100) :
    returnedPower c m v ≤ declaredGmax c + c.loss := by
  have hp : c.full * m * v * c.rgs ≤ c.full * largestImbalance c * 100 * c.rgs := by gcongr
  have hc : c.full * largestImbalance c * 100 * c.rgs = c.full * largestImbalance c * c.rgs * 100 := by ring
  unfold returnedPower declaredGmax; omega

/-- No run trip draws more than DMAX (R14): one that motors by its imbalance, every other by LOSS. -/
theorem steadyDraw_le_declaredDmax (c : Configuration) {d : Int} {v : Nat} (hd : d ≤ largestImbalance c)
    (hv : v ≤ 100) : steadyDraw c d v ≤ declaredDmax c := by
  have hloss : c.loss ≤ declaredDmax c := Nat.le_add_right ..
  rcases lt_trichotomy d 0 with h | h | h
  · rw [steadyDraw_regenerating c v h]; omega
  · rw [h, steadyDraw_level]; omega
  · rw [steadyDraw_motoring c v h]
    exact_mod_cast imbalanceDraw_le_declared c (by omega) hv

/-- No run trip returns more than GMAX (R14): only a regenerating one returns at all. -/
theorem neg_steadyDraw_le_declaredGmax (c : Configuration) {d : Int} {v : Nat} (hd : -d ≤ largestImbalance c)
    (hv : v ≤ 100) : -(steadyDraw c d v) ≤ declaredGmax c := by
  rcases lt_trichotomy d 0 with h | h | h
  · have hg := returnedPower_le_declared c (m := (-d).toNat) (by omega) hv
    rw [steadyDraw_regenerating c v h]; omega
  · rw [h, steadyDraw_level]; omega
  · rw [steadyDraw_motoring c v h]; omega

/-! ### The obligations on the figures -/

/-- Settles O4: the ceiling of R6 lies between its bounds, and grows with the step. -/
theorem motoringDraw : Obligations.MotoringDraw := by
  intro c d v w hd1 hd85 hf10 hf hl
  have hpos : (0 : Int) < d := by omega
  obtain ⟨hv25, hv100⟩ := v.percent_bounds
  have hq1 := imbalanceDraw_pos c (m := d) (v := v.percent) (by omega) (by omega) (by omega)
  have hq2 := imbalanceDraw_le c hf hd85 hv100
  simp only [steadyDraw_motoring c _ hpos, Int.toNat_natCast]
  refine ⟨⟨imbalanceDraw c d v.percent, rfl, le_mul_ceilDiv _ (by decide), mul_ceilDiv_lt _ (by decide)⟩,
    by omega, by omega, fun hvw => ?_⟩
  have hmono := imbalanceDraw_mono c d hvw
  omega

/-- Settles O5: the level branch reads no step. -/
theorem levelDraw : Obligations.LevelDraw := by
  intro c v w
  refine ⟨steadyDraw_level c _, ?_, fun hloss => ?_⟩
  · rw [steadyDraw_level, steadyDraw_level]
  · rw [steadyDraw_level, hloss, Nat.cast_zero]

/-- Settles O6: the floor of R8 lies between its bounds, and grows with the step. -/
theorem regeneratingDraw : Obligations.RegeneratingDraw := by
  intro c m v w hm1 hm85 hf hr
  have hneg : -(m : Int) < 0 := by omega
  simp only [steadyDraw_regenerating c _ hneg, neg_neg, Int.toNat_natCast]
  refine ⟨returnedPower c m v.percent, rfl, Nat.mul_div_le .., ?_, returnedPower_le c hf hm85 v.percent_bounds.2 hr,
    fun h0 => by simp [returnedPower, h0], fun hvw => ?_⟩
  · unfold returnedPower; omega
  · have hmono := returnedPower_mono c m hvw
    omega

/-- A motoring start lies between the draw and three times the largest draw (R9, R15). -/
theorem startStep_motoring_bounds (c : Configuration) {d : Int} {v : Nat} (hpos : 0 < d) (hd : d ≤ 85) (hv : v ≤ 100)
    (hf : c.full ≤ 2000) (hl : c.loss ≤ 500) (hs1 : 100 ≤ c.start) (hs3 : c.start ≤ 300) :
    steadyDraw c d v ≤ startStep c d v ∧ startStep c d v ≤ 6600 := by
  have hq := imbalanceDraw_le c hf (m := d.toNat) (by omega) hv
  rw [steadyDraw_motoring c _ hpos, startStep_motoring c _ hpos]
  set N := c.loss + imbalanceDraw c d.toNat v with hN
  have hmin : N * 100 ≤ N * c.start := by gcongr
  have hmax : N * c.start ≤ 2200 * 300 := by gcongr; omega
  have hle := le_mul_ceilDiv (N * c.start) (b := 100) (by decide)
  refine ⟨?_, (ceilDiv_le_iff (by decide)).mpr (by omega)⟩
  norm_cast
  omega

/-- The start of a level or regenerating trip is at most three times the largest LOSS (R9, R15). -/
theorem startStep_other_le (c : Configuration) {d : Int} (v : Nat) (h : d ≤ 0) (hl : c.loss ≤ 500)
    (hs3 : c.start ≤ 300) : startStep c d v ≤ 1500 := by
  have hmax : c.loss * c.start ≤ 500 * 300 := by gcongr
  rw [startStep_other c v h]
  exact (ceilDiv_le_iff (by decide)).mpr (by omega)

/-- Settles O7: the start step is the ceiling of the draw, or of LOSS, by START per cent. -/
theorem startStepRule : Obligations.StartStepRule := by
  intro c d v w _ hd hf hl hs1 hs3
  constructor
  · intro hpos
    obtain ⟨hmin, hmax⟩ := startStep_motoring_bounds c hpos hd v.percent_bounds.2 hf hl hs1 hs3
    refine ⟨?_, ?_, hmin, hmax⟩
    all_goals rw [steadyDraw_motoring c _ hpos, startStep_motoring c _ hpos]
    · exact_mod_cast le_mul_ceilDiv _ (by decide)
    · exact_mod_cast mul_ceilDiv_lt _ (by decide)
  · intro hneg
    refine ⟨?_, ?_, ?_, fun h0 => ?_, startStep_other_le c _ hneg hl hs3⟩
    all_goals rw [startStep_other c _ hneg]
    · exact le_mul_ceilDiv _ (by decide)
    · exact mul_ceilDiv_lt _ (by decide)
    · rw [startStep_other c _ hneg]
    · simp [h0, ceilDiv]

/-- Settles O8: the figures grow with the imbalance and the step, and D* at 100 is the largest of both. -/
theorem declaredMaximaBoundRuns : Obligations.DeclaredMaximaBoundRuns := by
  intro c load dir v hb40 hb55 hf10 hf hl hr hload
  have hD := largestImbalance_eq c hb55
  obtain ⟨hup, hdown⟩ := signedDemand_bounds dir hb55 hload
  have hv := v.percent_bounds.2
  have hprod : c.full * largestImbalance c ≤ 2000 * 85 := by gcongr; omega
  have hpos : 10 * 70 ≤ c.full * largestImbalance c := by gcongr; omega
  have hret : c.full * largestImbalance c * c.rgs ≤ 2000 * 85 * 90 := by gcongr
  have hle := le_mul_ceilDiv (c.full * largestImbalance c) (b := 100) (by decide)
  have hlt := mul_ceilDiv_lt (c.full * largestImbalance c) (b := 100) (by decide)
  refine ⟨⟨_, rfl, hD ▸ hle, hD ▸ hlt⟩,
    ⟨c.full * largestImbalance c * c.rgs / 10000, ?_, ?_, ?_⟩, ?_, ?_, ?_, ?_, ?_⟩
  · unfold declaredGmax; omega
  · rw [← hD]; exact Nat.mul_div_le ..
  · rw [← hD]; omega
  · exact steadyDraw_le_declaredDmax c (by omega) hv
  · exact neg_steadyDraw_le_declaredGmax c (by omega) hv
  · unfold declaredDmax; omega
  · unfold declaredDmax; omega
  · unfold declaredGmax; omega

end Sys2Proof.Machine
end

section
/-!
The operations that the requests and the timers share, each as the state it answers, one equation a case: a change of
state (R118), PRESENCE marked (R105), a trip record created and its claim posted (R134, R105), the position acted on
(R127), a reply (R168, R169).
-/

namespace Sys2Proof.Machine

/-! ### State changes and PRESENCE (R105, R116, R118) -/

theorem goTo_same {st : SeqState} {s : State} (h : s.seq.state = st) : goTo st s = s := by simp [goTo, h]

theorem goTo_other {st : SeqState} {s : State} (h : s.seq.state ≠ st) :
    goTo st s = { s with
      seq := { s.seq with state := st, shdn := st == .shedPending }
      link := { s.link with attention := true } } := by
  simp [goTo, h, attend]

theorem markPresence_driving {s : State} (h : s.seq.state.driving = true) :
    markPresence s = { s with con := { s.con with
      presenceDue := true, remarked := s.con.remarked || s.con.attempt.serves .presence } } := by
  simp [markPresence, h]

theorem markPresence_silent {s : State} (h : s.seq.state.driving = false) : markPresence s = s := by
  simp [markPresence, h]

/-! ### The trip record and its claim (R105, R127, R134) -/

/-- A record just created. -/
def newTrip (purpose : Purpose) (cls : Nat) (origin : Origin) (figures : Figures) (s : State) : Trip :=
  { id := s.seq.tripCounter, purpose := purpose, cls := cls, origin := origin, figures := figures }

theorem createTrip_eq (p : Purpose) (c : Nat) (o : Origin) (f : Figures) (s : State) :
    createTrip p c o f s = { s with
      seq := { s.seq with
        trip := some (newTrip p c o f s), tripCounter := s.seq.tripCounter + 1, lastTripId := s.seq.tripCounter }
      adm := { s.adm with view := { tripId := s.seq.tripCounter } }
      link := { s.link with attention := true } } := rfl

theorem postClaim_createTrip (p : Purpose) (c : Nat) (o : Origin) (f : Figures) (s : State) :
    postClaim (createTrip p c o f s) = { createTrip p c o f s with
      con := { s.con with claimSlot := some { kind := f.kind, tripId := s.seq.tripCounter } } } := rfl

theorem createEvacWake_eq (o : Origin) (s : State) :
    createEvacWake o s = { s with
      seq := { s.seq with
        trip := some (newTrip .evacuation (evacClass s) o (wakeFigures (conf s)) s)
        tripCounter := s.seq.tripCounter + 1, lastTripId := s.seq.tripCounter }
      adm := { s.adm with view := { tripId := s.seq.tripCounter } }
      con := { s.con with claimSlot := some { kind := .wake, tripId := s.seq.tripCounter } }
      link := { s.link with attention := true } } := rfl

/-- At a landing, with no record in hand, the position makes a wake trip (R127). -/
theorem actOnPosition_wakes {s : State} (hp : s.seq.report.position = .atLanding) (ht : s.seq.trip = none) :
    actOnPosition s =
      goTo .evacWait (createEvacWake (if s.seq.state = .assess then .assess else .evacWait) s) := by
  simp [actOnPosition, hp, ht]

theorem actOnPosition_waits {s : State} (h : s.seq.report.position ≠ .atLanding ∨ s.seq.trip ≠ none) :
    actOnPosition s = goTo .evacWait s := by
  have hn : ¬(s.seq.report.position = .atLanding ∧ s.seq.trip = none) := by tauto
  simp [actOnPosition, hn]

theorem enterAssess_stale {s : State} (h : s.seq.report.fresh = false) :
    enterAssess s = markPresence (goTo .assess s) := by
  by_cases hs : s.seq.state = .assess
  · simp [enterAssess, h, goTo_same hs]
  · simp [enterAssess, h, goTo_other hs]

theorem enterAssess_fresh {s : State} (h : s.seq.report.fresh = true) :
    enterAssess s = actOnPosition (markPresence (goTo .assess s)) := by
  by_cases hs : s.seq.state = .assess
  · simp [enterAssess, h, goTo_same hs]
  · simp [enterAssess, h, goTo_other hs]

/-! ### Requests taken, and the three replies (R168, R169) -/

/-- A request that a configured controller takes acts on the state in which it is taken, and is answered. -/
theorem takeRequest_taking {s : State} (h : Taking s) (code : Nat) (b : Bool) (act : State → State × Answer) :
    takeRequest code b act s = respond (act (requestTaken s)).2 (act (requestTaken s)).1 :=
  takeRequest_taken code b act s h.1 (.inl h.2)

theorem respond_check_refused {u : State} (h : u.link.receiver = .idle) (r : Reason) (d : Nat) :
    RefusedWith (respond (.check r d) u) r d := ⟨rfl, h, rfl, rfl⟩

theorem LinkElse.trans {s t u : State} (h : LinkElse s t) (h' : LinkElse t u) : LinkElse s u := by
  obtain ⟨ha, hr, hq, ho⟩ := h
  obtain ⟨ha', hr', hq', ho'⟩ := h'
  exact ⟨ha'.trans ha, hr'.trans hr, hq'.trans hq, ho'.trans ho⟩

theorem respond_linkElse {s u : State} (h : LinkElse s u) (a : Answer) : LinkElse s (respond a u) := by
  cases a <;> exact h

/-- A reply leaves all but the car link. -/
theorem respond_frame {s u : State} (h : u = { s with seq := u.seq, adm := u.adm, con := u.con, link := u.link })
    (a : Answer) : respond a u = { s with
      seq := (respond a u).seq, adm := (respond a u).adm, con := (respond a u).con, link := (respond a u).link } := by
  have hr : respond a u = { u with link := (respond a u).link } := by cases a <;> rfl
  rw [hr]
  exact congrArg (fun v => { v with link := (respond a u).link }) h

/-- A request refused at once changes nothing but the reply and the held reason. -/
theorem requestTaken_refused (s : State) (r : Reason) (d : Nat) :
    RefusedWith (respond (.check r d) (requestTaken s)) r d ∧
      respond (.check r d) (requestTaken s) = { s with link := (respond (.check r d) (requestTaken s)).link } :=
  ⟨respond_check_refused rfl r d, rfl⟩

theorem requestTaken_busy (s : State) :
    AnsweredBusy (respond .busy (requestTaken s)) ∧
      respond .busy (requestTaken s) = { s with link := (respond .busy (requestTaken s)).link } :=
  ⟨⟨rfl, rfl, rfl, rfl⟩, rfl⟩

theorem requestTaken_linkElse (s : State) : LinkElse s (requestTaken s) := ⟨rfl, rfl, rfl, rfl⟩

end Sys2Proof.Machine
end

section
/-! The start window and the join timer expire: the instants, the states entered, and from these O55. -/

namespace Sys2Proof.Machine

/-! ### The start window and the join timer -/

theorem enterNoSupply_eq {s : State} (h : s.supply.good = false) :
    enterNoSupply s = goTo .noSupply { s with seq := { s.seq with startWindow := .stopped } } := by
  simp [enterNoSupply, h]

/-- JOINING with its join timer stopped at the instant at which it expires. -/
def joined (since : Nat) (s : State) : State :=
  { passTo (since + joinTime s) s with seq := { s.seq with joinTimer := .stopped } }

/-- Two report intervals and a round of 920 bit times (R124). -/
theorem joinTime_eq (s : State) : joinTime s = 2 * ((conf s).reportInterval * 100000) + 9200 := by
  simp only [joinTime, Config.millisecond, Config.roundLength, Config.bitTime]
  omega

theorem joined_now (since : Nat) (s : State) :
    (joined since s).now = max s.now (since + 2 * ((conf s).reportInterval * 100000) + 9200) := by
  rw [Nat.add_assoc, ← joinTime_eq]
  rfl

theorem execJoinTimerExpiry_joining {s : State} {since : Nat} (hs : s.seq.state = .joining)
    (hj : s.seq.joinTimer = .running since) : execJoinTimerExpiry s = .next (enterAssess (joined since s)) := by
  rw [execJoinTimerExpiry, if_pos ⟨hs, by rw [hj]; rfl⟩, hj]
  rfl

/-- ASSESS entered from JOINING (R124, R127). -/
def assessing (since : Nat) (s : State) : State :=
  { joined since s with
    seq := { s.seq with joinTimer := .stopped, state := .assess, shdn := false }
    con := { s.con with presenceDue := true, remarked := s.con.remarked || s.con.attempt.serves .presence }
    link := { s.link with attention := true } }

theorem goTo_assess_joined {s : State} (since : Nat) (hs : s.seq.state = .joining) :
    markPresence (goTo .assess (joined since s)) = assessing since s := by
  have hn : (joined since s).seq.state ≠ .assess := by simp [joined, hs]
  rw [goTo_other hn, markPresence_driving rfl]
  rfl

/-- The start window stopped at the instant at which it expires. -/
def windowEnded (since : Nat) (s : State) : State :=
  { passTo (since + s.seq.startWindowLength) s with seq := { s.seq with startWindow := .stopped } }

theorem execStartWindowExpiry_unsupplied {s : State} {since : Nat} (hs : s.seq.state = .awaitSupply)
    (hw : s.seq.startWindow = .running since) (hg : s.supply.good = false) :
    execStartWindowExpiry s = .next (goTo .noSupply (windowEnded since s)) := by
  rw [execStartWindowExpiry, if_pos ⟨hs, by rw [hw]; rfl⟩, hw, passToExpiry_running,
    enterNoSupply_eq (s := passTo _ s) hg]
  rfl

/-- Settles O55: from JOINING by the three cases of the report, none, elsewhere than at a landing, and at one. -/
theorem waitingEnds : Obligations.WaitingEnds := by
  constructor
  · intro s since hs hw hg
    have hexec : exec .startWindowExpiry s = .next (goTo .noSupply (windowEnded since s)) :=
      execStartWindowExpiry_unsupplied hs hw hg
    rw [goTo_other (by simp [windowEnded, hs])] at hexec
    exact ⟨_, hexec, rfl, rfl, rfl, rfl⟩
  · intro s since hs hj ht
    have hexec : exec .joinTimerExpiry s = .next (enterAssess (joined since s)) :=
      execJoinTimerExpiry_joining hs hj
    by_cases hf : s.seq.report.fresh = true
    · rw [enterAssess_fresh (s := joined since s) hf, goTo_assess_joined since hs] at hexec
      by_cases hp : s.seq.report.position = .atLanding
      · rw [actOnPosition_wakes (s := assessing since s) hp ht, goTo_other (by simp [createEvacWake_eq, assessing])]
          at hexec
        exact ⟨_, hexec, joined_now since s, rfl, rfl, rfl, by simp [hf],
          fun _ => ⟨rfl, fun h => absurd hp h, fun _ => ⟨rfl, rfl⟩⟩, rfl, rfl, rfl⟩
      · rw [actOnPosition_waits (s := assessing since s) (.inl hp), goTo_other (by simp [assessing])] at hexec
        exact ⟨_, hexec, joined_now since s, rfl, rfl, rfl, by simp [hf],
          fun _ => ⟨rfl, fun _ => ⟨ht, rfl⟩, fun h => absurd h hp⟩, rfl, rfl, rfl⟩
    · have hf' : s.seq.report.fresh = false := by simpa using hf
      rw [enterAssess_stale (s := joined since s) hf', goTo_assess_joined since hs] at hexec
      exact ⟨_, hexec, joined_now since s, rfl, rfl, rfl, fun _ => ⟨rfl, ht⟩, by simp [hf], rfl, rfl, rfl⟩

end Sys2Proof.Machine
end

section
/-! A wake asked for in PARKED by either request: its refusals, the flag that selects service, the wake, and O38. -/

namespace Sys2Proof.Machine

/-! ### The wake from PARKED (R146, R149, R150) -/

/-- A wake asked for in PARKED, by a service select when `selects` holds and else by a call: refused, or the car
woken. -/
def wakeRequested (selects : Bool) (s : State) : State × Answer :=
  match wakeRefusal s with
  | some a => (s, a)
  | none => acceptWithState (wakeCar (if selects then setSelected true s else s))

theorem wakeRefusal_locked {s : State} (h : s.seq.lockout = true) : wakeRefusal s = some (.check .positionLost 0) := by
  simp [wakeRefusal, h]

theorem wakeRefusal_shedHold {s : State} (hl : s.seq.lockout = false) (hs : s.seq.shedHold ≠ .clear) :
    wakeRefusal s = some (.check .shedHold 0) := by
  simp [wakeRefusal, hl, ShedHold.isRunning, hs]

theorem wakeRefusal_ending {s : State} (hl : s.seq.lockout = false) (hs : s.seq.shedHold = .clear)
    (he : tripIn .ending s = true) : wakeRefusal s = some .busy := by
  simp [wakeRefusal, hl, ShedHold.isRunning, hs, he]

theorem wakeRefusal_none {s : State} (hl : s.seq.lockout = false) (hs : s.seq.shedHold = .clear)
    (he : tripIn .ending s = false) : wakeRefusal s = none := by
  simp [wakeRefusal, hl, ShedHold.isRunning, hs, he]

theorem wakeRequested_refused {s : State} {a : Answer} (h : wakeRefusal s = some a) (b : Bool) :
    wakeRequested b s = (s, a) := by simp [wakeRequested, h]

theorem wakeRequested_wakes {s : State} (h : wakeRefusal s = none) (b : Bool) :
    wakeRequested b s = acceptWithState (wakeCar (if b then setSelected true s else s)) := by
  simp [wakeRequested, h]

/-- SERVICE-SELECT ON in PARKED asks for a wake: its own lockout check is the wake's first (R146, R149). -/
theorem judgeServiceSelect_parked {s : State} (hs : s.seq.state = .parked) :
    judgeServiceSelect 1 0 s = wakeRequested true s := by
  cases hl : s.seq.lockout
  · simp [judgeServiceSelect, hs, hl]
    rfl
  · simp [judgeServiceSelect, hs, hl, wakeRequested_refused (wakeRefusal_locked hl), refuse]

theorem sourceInMask_iff (n : Nat) (mask : Byte) : sourceInMask n mask = mask.getLsbD (n - 1) := by
  simp [sourceInMask, bitOf, BitVec.getLsbD, Nat.testBit_eq_decide_div_mod_eq]
  rfl

theorem judgeCallEvent_parked {s : State} {source : Byte} (hs : s.seq.state = .parked) (h1 : 1 ≤ source.toNat)
    (h4 : source.toNat ≤ 4) (hm : (conf s).wakeMask.getLsbD (source.toNat - 1) = true) :
    judgeCallEvent source 0 s = wakeRequested false s := by
  have hr : ¬(source.toNat = 0 ∨ 4 < source.toNat) := by omega
  simp [judgeCallEvent, hr, hs, sourceInMask_iff, hm]
  rfl

/-- A request that asks for a wake in PARKED is answered as one, the service select writing its flag (R146, R149,
R150). -/
theorem exec_wakeRequested {s : State} {i : Instr} (ht : Taking s) (hs : s.seq.state = .parked)
    (hi : i = .serviceSelect 1 0 ∨ ∃ source : Byte, i = .callEvent source 0 ∧ 1 ≤ source.toNat ∧ source.toNat ≤ 4 ∧
      (conf s).wakeMask.getLsbD (source.toNat - 1) = true) :
    exec i s = .next (respond (wakeRequested (i == .serviceSelect 1 0) (requestTaken s)).2
      (wakeRequested (i == .serviceSelect 1 0) (requestTaken s)).1) := by
  have hs' : (requestTaken s).seq.state = .parked := hs
  rcases hi with rfl | ⟨source, rfl, h1, h4, hm⟩
  · simp only [exec, execServiceSelect, takeRequest_taking ht, judgeServiceSelect_parked hs', beq_self_eq_true]
  · have hb : (Instr.callEvent source 0 == .serviceSelect 1 0) = false := rfl
    simp only [exec, execCallEvent, takeRequest_taking ht, hb]
    rw [judgeCallEvent_parked hs' h1 h4 hm]

/-- Selecting service in PARKED writes the flag and, where it changes, marks PRESENCE due (R149). -/
theorem setSelected_parked {s : State} (hs : s.seq.state = .parked) (b : Bool) :
    ∃ due remarked, (if b then setSelected true s else s) = { s with
      seq := { s.seq with serviceSelected := s.seq.serviceSelected || b }
      con := { s.con with presenceDue := due, remarked := remarked } } := by
  have hd : SeqState.driving s.seq.state = true := by rw [hs]; rfl
  cases b
  · exact ⟨s.con.presenceDue, s.con.remarked, by simp⟩
  · cases hsel : s.seq.serviceSelected
    · refine ⟨true, s.con.remarked || s.con.attempt.serves .presence, ?_⟩
      rw [if_pos rfl, setSelected, if_neg (by simp [hsel]),
        markPresence_driving (s := { s with seq := { s.seq with serviceSelected := true } }) hd]
      rfl
    · refine ⟨s.con.presenceDue, s.con.remarked, ?_⟩
      rw [if_pos rfl, setSelected, if_pos hsel, Bool.true_or, ← hsel]

/-- The wake of a parked car (R134, R146; PRESENCE due: log 14). -/
theorem wakeCar_parked {s : State} (hs : s.seq.state = .parked) :
    wakeCar s = { s with
      seq := { s.seq with
        state := .serviceWait, shdn := false
        trip := some (newTrip .service (serviceClass s) .parked (wakeFigures (conf s)) s)
        tripCounter := s.seq.tripCounter + 1, lastTripId := s.seq.tripCounter, agingTimer := .running s.now }
      adm := { s.adm with view := { tripId := s.seq.tripCounter } }
      con := { s.con with
        claimSlot := some { kind := .wake, tripId := s.seq.tripCounter }
        presenceDue := true, remarked := s.con.remarked || s.con.attempt.serves .presence }
      link := { s.link with attention := true } } := by
  rw [wakeCar, enterServiceWait, postClaim_createTrip, createTrip_eq, goTo_other (by simp [hs]),
    markPresence_driving rfl]
  rfl

/-- Settles O38: the three grounds of refusal in their order, then the wake. -/
theorem wakeFromParked : Obligations.WakeFromParked := by
  intro s i ht hs hi
  have hexec := exec_wakeRequested ht hs hi
  generalize (i == .serviceSelect 1 0) = selects at hexec ⊢
  cases hl : s.seq.lockout
  case true =>
    rw [wakeRequested_refused (wakeRefusal_locked (s := requestTaken s) hl)] at hexec
    exact ⟨_, hexec, ⟨rfl, rfl, rfl, rfl⟩, fun _ => requestTaken_refused .., by simp, by simp, by simp⟩
  by_cases hh : s.seq.shedHold = .clear
  case neg =>
    rw [wakeRequested_refused (wakeRefusal_shedHold (s := requestTaken s) hl hh)] at hexec
    exact ⟨_, hexec, ⟨rfl, rfl, rfl, rfl⟩, by simp, fun _ _ => requestTaken_refused .., by simp [hh], by simp [hh]⟩
  cases he : tripIn .ending s
  case true =>
    rw [wakeRequested_refused (wakeRefusal_ending (s := requestTaken s) hl hh he)] at hexec
    exact ⟨_, hexec, ⟨rfl, rfl, rfl, rfl⟩, by simp, by simp [hh], fun _ _ _ => requestTaken_busy s, by simp⟩
  case false =>
    obtain ⟨due, remarked, hsel⟩ := setSelected_parked (s := requestTaken s) hs selects
    rw [wakeRequested_wakes (wakeRefusal_none (s := requestTaken s) hl hh he), hsel,
      wakeCar_parked (by exact hs)] at hexec
    exact ⟨_, hexec, ⟨rfl, rfl, rfl, rfl⟩, by simp, by simp [hh], by simp, fun _ _ _ =>
      ⟨⟨rfl, rfl⟩, ⟨rfl, rfl⟩, rfl, rfl, rfl, rfl, rfl, rfl, rfl, rfl, rfl, rfl, rfl, rfl⟩⟩

end Sys2Proof.Machine
end

section
/-!
CAR-REPORT: what a report notes in every state (R125, R126, R128), what acting on it may write, its effect by
state (R127, R160, R161), and from these O32. With it the start of a record in FALLBACK, which TRIP-REQUEST shares.
-/

namespace Sys2Proof.Machine

/-! ### A start in FALLBACK (R161) -/

theorem startIfOpen_closed {s : State} (h : firstHalfOpen s = false) : startIfOpen s = s := by simp [startIfOpen, h]

theorem startIfOpen_open {s : State} (h : firstHalfOpen s = true) : startIfOpen s = startFallbackTrip s := by
  simp [startIfOpen, h]

theorem endTrip_some {s : State} {x : Trip} (h : s.seq.trip = some x) :
    endTrip s = { s with
      seq := { s.seq with trip := none, agingTimer := .stopped }
      adm := { s.adm with patience := .stopped, ownDemand := none }
      link := { s.link with attention := true } } := by
  simp [endTrip, h, changeTrip, attend]

/-- A wake trip starts in FALLBACK by ending: the car stands at STBY with the trip's class (R161). -/
theorem startFallbackTrip_wake {s : State} {x : Trip} {set : StepFigures} (ht : s.seq.trip = some x)
    (hp : x.phase = .pending) (hf : x.figures = .wake set) :
    startFallbackTrip s = { endTrip s with seq := { (endTrip s).seq with
      commitment := ((conf s).stby : Int), claimClass := x.cls, stamp := 0 } } := by
  have hc : conf (endTrip s) = conf s := by simp [conf]
  simp [startFallbackTrip, ht, hp, hf, hc]

/-- A run trip starts in FALLBACK at 25, with no stamp (R161). -/
theorem startFallbackTrip_run {s : State} {x : Trip} {a b c d : StepFigures} (ht : s.seq.trip = some x)
    (hp : x.phase = .pending) (hf : x.figures = .run a b c d) :
    startFallbackTrip s = { s with
      seq := { s.seq with
        trip := some { x with phase := .running }, spd := .p25, runp := true, runTimer := .running s.now
        commitment := x.figures.floorDraw, claimClass := x.cls, stamp := 0 }
      link := { s.link with attention := true } } := by
  simp [startFallbackTrip, ht, hp, hf, changeTrip, attend]

/-! ### The report noted: report record, occupancy and lockout (R125, R126, R128) -/

/-- The lockout flag after a reported position (R128). -/
def lockoutAfter (p : Position) (b : Bool) : Bool :=
  match p with
  | .atLanding => false
  | .between => b
  | .lost => true

/-- What a report does in every state. -/
def noteReport (p : Position) (landing occupancy : Byte) (s : State) : State :=
  lockoutBy p (takeOccupancy (occupancy == 1)
    { s with seq := { s.seq with report := { position := p, landing := landing, fresh := true } } })

/-- What a report does in ASSESS, in EVAC_WAIT with no record, and in FALLBACK. -/
def actOnReport (p : Position) (s : State) : State :=
  match s.seq.state with
  | .assess => actOnPosition s
  | .evacWait => if s.seq.trip = none then actOnPosition s else s
  | .fallback => reportInFallback p s
  | _ => s

theorem takeReport_eq (p : Position) (landing occupancy : Byte) (s : State) :
    takeReport p landing (occupancy == 1) s = actOnReport p (noteReport p landing occupancy s) := rfl

theorem reclassed_of_not_occupied {occupancy : Byte} (h : occupancy ≠ 1) : reclassed occupancy = id := by
  funext x
  rw [reclassed, if_neg fun hx => h hx.1]
  rfl

theorem reclassed_changes {x : Trip} (hp : x.purpose = .evacuation) : reclassed 1 x = { x with cls := 1 } := by
  rw [reclassed, if_pos ⟨rfl, hp⟩]

theorem reclassed_keeps {x : Trip} (h : ¬(x.purpose = .evacuation ∧ x.cls ≠ 1)) : reclassed 1 x = x := by
  by_cases hp : x.purpose = .evacuation
  · have hc : x.cls = 1 := by by_contra hc; exact h ⟨hp, hc⟩
    rw [reclassed_changes hp, ← hc]
  · rw [reclassed, if_neg fun hx => hp hx.2]

theorem followOccupancy_none {s : State} (h : s.seq.trip = none) : followOccupancy s = s := by
  simp [followOccupancy, h]

theorem followOccupancy_some {s : State} {x : Trip} (h : s.seq.trip = some x) :
    followOccupancy s =
      if x.purpose = .evacuation ∧ x.cls ≠ evacClass s then changeTrip (some { x with cls := evacClass s }) s
      else s := by
  simp only [followOccupancy, h]

/-- A record's class follows the occupancy that a report of an occupied car has set; a change of it sets ATTENTION
(R126). -/
theorem followOccupancy_occupied {s : State} (h : s.seq.occupancy = true) :
    ∃ attention, followOccupancy s = { s with
        seq := { s.seq with trip := s.seq.trip.map (reclassed 1) }
        link := { s.link with attention := attention } } ∧
      (s.seq.trip.map (reclassed 1) ≠ s.seq.trip → attention = true) := by
  have hc : evacClass s = 1 := by simp [evacClass, h]
  cases ht : s.seq.trip with
  | none =>
    refine ⟨s.link.attention, ?_, fun hn => absurd rfl hn⟩
    rw [followOccupancy_none ht, Option.map_none, ← ht]
  | some x =>
    rw [followOccupancy_some ht, hc, Option.map_some]
    by_cases hx : x.purpose = .evacuation ∧ x.cls ≠ 1
    · exact ⟨true, by rw [if_pos hx, reclassed_changes hx.1]; rfl, fun _ => rfl⟩
    · rw [if_neg hx, reclassed_keeps hx, ← ht]
      exact ⟨s.link.attention, rfl, fun hn => absurd rfl hn⟩

/-- An occupied car sets the flag and starts the hold; an empty one leaves both (R126). -/
theorem takeOccupancy_eq (occupancy : Byte) (s : State) :
    ∃ attention, takeOccupancy (occupancy == 1) s = { s with
        seq := { s.seq with
          occupancy := s.seq.occupancy || occupancy == 1
          occupancyHold := if occupancy = 1 then .running s.now else s.seq.occupancyHold
          trip := s.seq.trip.map (reclassed occupancy) }
        link := { s.link with attention := attention } } ∧
      (s.seq.trip.map (reclassed occupancy) ≠ s.seq.trip → attention = true) := by
  by_cases ho : occupancy = 1
  · subst ho
    obtain ⟨attention, he, ha⟩ := followOccupancy_occupied
      (s := { s with seq := { s.seq with occupancy := true, occupancyHold := .running s.now } }) rfl
    refine ⟨attention, ?_, ha⟩
    rw [takeOccupancy, if_pos (beq_self_eq_true _), he, beq_self_eq_true, Bool.or_true, if_pos rfl]
  · have hb : (occupancy == 1) = false := by simpa using ho
    refine ⟨s.link.attention, ?_, fun hn => absurd ?_ hn⟩
    all_goals rw [reclassed_of_not_occupied ho, Option.map_id]
    · rw [takeOccupancy, hb, Bool.or_false, if_neg ho]
      rfl
    · rfl

/-- The lockout follows the position; PRESENCE is marked due in a driving state alone (R128, log 13). -/
theorem lockoutBy_eq (p : Position) (s : State) :
    ∃ due remarked, lockoutBy p s = { s with
        seq := { s.seq with lockout := lockoutAfter p s.seq.lockout }
        con := { s.con with presenceDue := due, remarked := remarked } } ∧
      (s.seq.state.driving = false → due = s.con.presenceDue ∧ remarked = s.con.remarked) := by
  have hset (b : Bool) : ∃ due remarked, setLockout b s = { s with
        seq := { s.seq with lockout := b }
        con := { s.con with presenceDue := due, remarked := remarked } } ∧
      (s.seq.state.driving = false → due = s.con.presenceDue ∧ remarked = s.con.remarked) := by
    by_cases hb : s.seq.lockout = b
    · exact ⟨_, _, by rw [setLockout, if_pos hb, ← hb], fun _ => ⟨rfl, rfl⟩⟩
    · rw [setLockout, if_neg hb]
      cases hd : s.seq.state.driving
      · exact ⟨_, _, markPresence_silent hd, fun _ => ⟨rfl, rfl⟩⟩
      · exact ⟨_, _, markPresence_driving hd, by simp⟩
  cases p with
  | atLanding => exact hset false
  | between => exact ⟨s.con.presenceDue, s.con.remarked, rfl, fun _ => ⟨rfl, rfl⟩⟩
  | lost => exact hset true

/-- The report noted, with the ATTENTION flag and the marks of the PRESENCE slot that it leaves. -/
def noted (p : Position) (landing occupancy : Byte) (attention due remarked : Bool) (s : State) : State :=
  { s with
    seq := { s.seq with
      report := { position := p, landing := landing, fresh := true }
      occupancy := s.seq.occupancy || occupancy == 1
      occupancyHold := if occupancy = 1 then .running s.now else s.seq.occupancyHold
      trip := s.seq.trip.map (reclassed occupancy), lockout := lockoutAfter p s.seq.lockout }
    con := { s.con with presenceDue := due, remarked := remarked }
    link := { s.link with attention := attention } }

theorem noteReport_eq (p : Position) (landing occupancy : Byte) (s : State) :
    ∃ attention due remarked, noteReport p landing occupancy s = noted p landing occupancy attention due remarked s ∧
      (s.seq.trip.map (reclassed occupancy) ≠ s.seq.trip → attention = true) ∧
      (s.seq.state.driving = false → due = s.con.presenceDue ∧ remarked = s.con.remarked) := by
  obtain ⟨attention, ho, ha⟩ := takeOccupancy_eq occupancy
    { s with seq := { s.seq with report := { position := p, landing := landing, fresh := true } } }
  obtain ⟨due, remarked, hl, hd⟩ := lockoutBy_eq p (takeOccupancy (occupancy == 1)
    { s with seq := { s.seq with report := { position := p, landing := landing, fresh := true } } })
  rw [ho] at hl hd
  exact ⟨attention, due, remarked, by rw [noteReport, ho, hl]; rfl, ha, hd⟩

/-! ### The report acted on, by state (R127, R160, R161) -/

theorem actOnReport_other {p : Position} {s : State} (ha : s.seq.state ≠ .assess) (he : s.seq.state ≠ .evacWait)
    (hf : s.seq.state ≠ .fallback) : actOnReport p s = s := by
  unfold actOnReport
  split
  · exact absurd ‹_› ha
  · exact absurd ‹_› he
  · exact absurd ‹_› hf
  · rfl

theorem actOnReport_fallback {p : Position} {s : State} (h : s.seq.state = .fallback) :
    actOnReport p s = reportInFallback p s := by
  simp [actOnReport, h]

theorem actOnReport_wakes {p : Position} {s : State} (h : s.seq.state = .assess ∨ s.seq.state = .evacWait)
    (hp : s.seq.report.position = .atLanding) (ht : s.seq.trip = none) :
    actOnReport p s = goTo .evacWait (createEvacWake (if s.seq.state = .assess then .assess else .evacWait) s) := by
  rw [← actOnPosition_wakes hp ht]
  rcases h with h | h <;> simp [actOnReport, h, ht]

theorem actOnReport_waits {p : Position} {s : State} (h : s.seq.state = .assess ∨ s.seq.state = .evacWait)
    (hp : s.seq.report.position ≠ .atLanding ∨ s.seq.trip ≠ none) : actOnReport p s = goTo .evacWait s := by
  have hw := actOnPosition_waits hp
  rcases h with h | h
  · simp [actOnReport, h, hw]
  · by_cases ht : s.seq.trip = none
    · simp [actOnReport, h, ht, hw]
    · simp [actOnReport, h, ht, goTo_same h]

/-- The wake record of a landing in FALLBACK, with the landed mark (R160). -/
def landedWake (s : State) : State :=
  { s with
    seq := { s.seq with
      landedMark := true, trip := some (newTrip .evacuation (evacClass s) .fallback (wakeFigures (conf s)) s)
      tripCounter := s.seq.tripCounter + 1, lastTripId := s.seq.tripCounter }
    adm := { s.adm with view := { tripId := s.seq.tripCounter } }
    link := { s.link with attention := true } }

theorem reportInFallback_elsewhere {p : Position} (hp : p ≠ .atLanding) (s : State) :
    reportInFallback p s = { s with seq := { s.seq with landedMark := false } } := by
  simp [reportInFallback, hp]

theorem reportInFallback_again {s : State} (h : s.seq.landedMark = true ∨ s.seq.trip ≠ none) :
    reportInFallback .atLanding s = s := by
  have hn : ¬(s.seq.landedMark = false ∧ s.seq.trip = none) := by rcases h with h | h <;> simp [h]
  simp only [reportInFallback, hn, if_true, if_false]

theorem reportInFallback_creates {s : State} (hm : s.seq.landedMark = false) (ht : s.seq.trip = none) :
    reportInFallback .atLanding s = startIfOpen (landedWake s) := by
  simp only [reportInFallback, hm, ht, and_self, if_true]
  rfl

theorem landedWake_closed {s : State} (h : firstHalfOpen s = false) : startIfOpen (landedWake s) = landedWake s :=
  startIfOpen_closed h

/-- In the first half of the own window the wake starts in the step that makes it (R161, log 27). -/
theorem landedWake_open {s : State} (h : firstHalfOpen s = true) :
    startIfOpen (landedWake s) = { landedWake s with
      seq := { (landedWake s).seq with
        trip := none, agingTimer := .stopped, commitment := ((conf s).stby : Int), claimClass := evacClass s
        stamp := 0 }
      adm := { (landedWake s).adm with patience := .stopped, ownDemand := none } } := by
  rw [startIfOpen_open (s := landedWake s) h, startFallbackTrip_wake (s := landedWake s) rfl rfl rfl,
    endTrip_some (s := landedWake s) rfl]
  rfl

/-- What acting on a report may write, and what it leaves. -/
structure ActedOn (n u : State) : Prop where
  frame : u = { n with seq := u.seq, adm := u.adm, con := u.con, link := u.link }
  con : u.con = { n.con with
    claimSlot := u.con.claimSlot, presenceDue := u.con.presenceDue, remarked := u.con.remarked }
  link : LinkElse n u ∧ u.link.receiver = n.link.receiver ∧ u.link.reason = n.link.reason ∧
    u.link.detail = n.link.detail
  trip : u.seq.trip ≠ n.seq.trip → u.link.attention = true
  attention : n.link.attention = true → u.link.attention = true
  report : u.seq.report = n.seq.report
  occupancy : u.seq.occupancy = n.seq.occupancy ∧ u.seq.occupancyHold = n.seq.occupancyHold
  lockout : u.seq.lockout = n.seq.lockout
  state : n.seq.state ≠ .assess → u.seq.state = n.seq.state
  seq : n.seq.state ≠ .fallback → u.seq = { n.seq with
    state := u.seq.state, shdn := u.seq.shdn, report := u.seq.report, occupancy := u.seq.occupancy
    occupancyHold := u.seq.occupancyHold, lockout := u.seq.lockout, trip := u.seq.trip
    tripCounter := u.seq.tripCounter, lastTripId := u.seq.lastTripId }

theorem ActedOn.refl (n : State) : ActedOn n n :=
  ⟨rfl, rfl, ⟨⟨rfl, rfl, rfl, rfl⟩, rfl, rfl, rfl⟩, fun h => absurd rfl h, id, rfl, ⟨rfl, rfl⟩, rfl,
    fun _ => rfl, fun _ => rfl⟩

theorem actedOn_waits {n : State} (hs : n.seq.state = .assess ∨ n.seq.state = .evacWait) :
    ActedOn n (goTo .evacWait n) := by
  rcases hs with hs | hs
  · rw [goTo_other (by simp [hs])]
    exact ⟨rfl, rfl, ⟨⟨rfl, rfl, rfl, rfl⟩, rfl, rfl, rfl⟩, fun _ => rfl, fun _ => rfl, rfl, ⟨rfl, rfl⟩, rfl,
      fun h => absurd hs h, fun _ => rfl⟩
  · rw [goTo_same hs]
    exact .refl n

theorem actedOn_wakes (o : Origin) {n : State} (hs : n.seq.state = .assess ∨ n.seq.state = .evacWait) :
    ActedOn n (goTo .evacWait (createEvacWake o n)) := by
  rw [createEvacWake_eq]
  rcases hs with hs | hs
  · rw [goTo_other (by simp [hs])]
    exact ⟨rfl, rfl, ⟨⟨rfl, rfl, rfl, rfl⟩, rfl, rfl, rfl⟩, fun _ => rfl, fun _ => rfl, rfl, ⟨rfl, rfl⟩, rfl,
      fun h => absurd hs h, fun _ => rfl⟩
  · rw [goTo_same (by exact hs)]
    exact ⟨rfl, rfl, ⟨⟨rfl, rfl, rfl, rfl⟩, rfl, rfl, rfl⟩, fun _ => rfl, fun _ => rfl, rfl, ⟨rfl, rfl⟩, rfl,
      fun _ => rfl, fun _ => rfl⟩

theorem actedOn_fallback (p : Position) {n : State} (h : n.seq.state = .fallback) :
    ActedOn n (reportInFallback p n) := by
  by_cases hp : p = .atLanding
  case neg =>
    rw [reportInFallback_elsewhere hp]
    exact ⟨rfl, rfl, ⟨⟨rfl, rfl, rfl, rfl⟩, rfl, rfl, rfl⟩, fun h => absurd rfl h, id, rfl, ⟨rfl, rfl⟩, rfl,
      fun _ => rfl, fun hn => absurd h hn⟩
  subst hp
  by_cases hm : n.seq.landedMark = true ∨ n.seq.trip ≠ none
  · rw [reportInFallback_again hm]
    exact .refl n
  obtain ⟨hmark, htrip⟩ : n.seq.landedMark = false ∧ n.seq.trip = none := by simpa using hm
  rw [reportInFallback_creates hmark htrip]
  cases ho : firstHalfOpen n
  · rw [landedWake_closed ho]
    exact ⟨rfl, rfl, ⟨⟨rfl, rfl, rfl, rfl⟩, rfl, rfl, rfl⟩, fun _ => rfl, fun _ => rfl, rfl, ⟨rfl, rfl⟩, rfl,
      fun _ => rfl, fun hn => absurd h hn⟩
  · rw [landedWake_open ho]
    exact ⟨rfl, rfl, ⟨⟨rfl, rfl, rfl, rfl⟩, rfl, rfl, rfl⟩, fun _ => rfl, fun _ => rfl, rfl, ⟨rfl, rfl⟩, rfl,
      fun _ => rfl, fun hn => absurd h hn⟩

theorem actOnReport_acts (p : Position) (n : State) : ActedOn n (actOnReport p n) := by
  by_cases hw : n.seq.state = .assess ∨ n.seq.state = .evacWait
  · by_cases hp : n.seq.report.position = .atLanding ∧ n.seq.trip = none
    · rw [actOnReport_wakes hw hp.1 hp.2]
      exact actedOn_wakes _ hw
    · rw [actOnReport_waits hw (by tauto)]
      exact actedOn_waits hw
  · by_cases hf : n.seq.state = .fallback
    · rw [actOnReport_fallback hf]
      exact actedOn_fallback p hf
    · rw [actOnReport_other (fun h => hw (.inl h)) (fun h => hw (.inr h)) hf]
      exact .refl n

theorem actOnReport_assess (p : Position) {n : State} (h : n.seq.state = .assess) :
    (actOnReport p n).seq.state = .evacWait := by
  by_cases hp : n.seq.report.position = .atLanding ∧ n.seq.trip = none
  · rw [actOnReport_wakes (.inl h) hp.1 hp.2, goTo_state]
  · rw [actOnReport_waits (.inl h) (by tauto), goTo_state]

/-- The wake of a car at a landing (R12, R127). -/
theorem actOnReport_wake_effect (p : Position) {n : State} (hs : n.seq.state = .assess ∨ n.seq.state = .evacWait)
    (hp : n.seq.report.position = .atLanding) (ht : n.seq.trip = none) :
    (actOnReport p n).seq.trip = some (newTrip .evacuation (evacClass (actOnReport p n))
        (if n.seq.state = .assess then .assess else .evacWait) (wakeFigures (conf n)) n) ∧
      (actOnReport p n).con.claimSlot = some { kind := .wake, tripId := n.seq.tripCounter } ∧
      (actOnReport p n).seq.tripCounter = n.seq.tripCounter + 1 := by
  rw [actOnReport_wakes hs hp ht, createEvacWake_eq]
  rcases hs with hs | hs
  · rw [goTo_other (by simp [hs])]
    exact ⟨rfl, rfl, rfl⟩
  · rw [goTo_same (by exact hs)]
    exact ⟨rfl, rfl, rfl⟩

theorem actOnReport_wait_effect (p : Position) {n : State} (hs : n.seq.state = .assess ∨ n.seq.state = .evacWait)
    (hp : n.seq.report.position ≠ .atLanding ∨ n.seq.trip ≠ none) :
    (actOnReport p n).seq.trip = n.seq.trip ∧ (actOnReport p n).seq.tripCounter = n.seq.tripCounter ∧
      (actOnReport p n).con.claimSlot = n.con.claimSlot ∧ (actOnReport p n).adm = n.adm := by
  rw [actOnReport_waits hs hp]
  rcases hs with hs | hs
  · rw [goTo_other (by simp [hs])]
    exact ⟨rfl, rfl, rfl, rfl⟩
  · rw [goTo_same hs]
    exact ⟨rfl, rfl, rfl, rfl⟩

/-- A report in FALLBACK leaves the run and the slots, and writes the landed mark (R160). -/
theorem reportInFallback_frame (p : Position) (n : State) :
    (reportInFallback p n).con = n.con ∧ (reportInFallback p n).seq.runp = n.seq.runp ∧
      (reportInFallback p n).seq.spd = n.seq.spd ∧
      (reportInFallback p n).seq.landedMark = (p == .atLanding && (n.seq.landedMark || n.seq.trip.isNone)) := by
  by_cases hp : p = .atLanding
  case neg =>
    rw [reportInFallback_elsewhere hp]
    exact ⟨rfl, rfl, rfl, by simp [hp]⟩
  subst hp
  by_cases hm : n.seq.landedMark = true ∨ n.seq.trip ≠ none
  · rw [reportInFallback_again hm]
    refine ⟨rfl, rfl, rfl, ?_⟩
    rcases hm with hm | hm <;> simp [hm]
  obtain ⟨hmark, htrip⟩ : n.seq.landedMark = false ∧ n.seq.trip = none := by simpa using hm
  rw [reportInFallback_creates hmark htrip, hmark, htrip]
  cases ho : firstHalfOpen n
  · rw [landedWake_closed ho]
    exact ⟨rfl, rfl, rfl, rfl⟩
  · rw [landedWake_open ho]
    exact ⟨rfl, rfl, rfl, rfl⟩

theorem reportInFallback_trip_kept {p : Position} {n : State}
    (h : p ≠ .atLanding ∨ n.seq.landedMark = true ∨ n.seq.trip ≠ none) :
    (reportInFallback p n).seq.trip = n.seq.trip ∧ (reportInFallback p n).seq.tripCounter = n.seq.tripCounter ∧
      (reportInFallback p n).seq.commitment = n.seq.commitment := by
  by_cases hp : p = .atLanding
  · subst hp
    rw [reportInFallback_again (h.resolve_left (by simp))]
    exact ⟨rfl, rfl, rfl⟩
  · rw [reportInFallback_elsewhere hp]
    exact ⟨rfl, rfl, rfl⟩

/-- The wake of a car that lands in FALLBACK waits for the own window, or starts at once in the first half of it (R160,
R161). -/
theorem reportInFallback_wake_effect {n : State} (hm : n.seq.landedMark = false) (ht : n.seq.trip = none) :
    (reportInFallback .atLanding n).seq.tripCounter = n.seq.tripCounter + 1 ∧
      (reportInFallback .atLanding n).seq.lastTripId = n.seq.tripCounter ∧
      (firstHalfOpen n = false → (reportInFallback .atLanding n).seq.commitment = n.seq.commitment ∧
        (reportInFallback .atLanding n).seq.trip =
          some (newTrip .evacuation (evacClass (reportInFallback .atLanding n)) .fallback (wakeFigures (conf n)) n)) ∧
      (firstHalfOpen n = true → (reportInFallback .atLanding n).seq.trip = none ∧
        (reportInFallback .atLanding n).seq.commitment = ((conf n).stby : Int) ∧
        (reportInFallback .atLanding n).seq.claimClass = evacClass (reportInFallback .atLanding n) ∧
        (reportInFallback .atLanding n).seq.stamp = 0) := by
  rw [reportInFallback_creates hm ht]
  cases ho : firstHalfOpen n
  · rw [landedWake_closed ho]
    exact ⟨rfl, rfl, fun _ => ⟨rfl, rfl⟩, by simp⟩
  · rw [landedWake_open ho]
    exact ⟨rfl, rfl, by simp, fun _ => ⟨rfl, rfl, rfl, rfl⟩⟩

/-! ### CAR-REPORT judged (R125) -/

theorem carReportBadField_some {position occupancy reserved : Byte}
    (h : positionOf position = none ∨ 1 < occupancy.toNat ∨ reserved ≠ 0) :
    carReportBadField position occupancy reserved =
      some (if positionOf position = none then 1 else if 1 < occupancy.toNat then 3 else 4) := by
  by_cases hp : positionOf position = none
  · simp only [carReportBadField, hp, if_true]
  by_cases ho : 1 < occupancy.toNat
  · simp only [carReportBadField, hp, ho, if_true, if_false]
  · have hr : reserved ≠ 0 := by tauto
    simp only [carReportBadField, hp, ho, hr, if_true, if_false, ne_eq, not_false_eq_true]

theorem judgeReport_refused {position occupancy reserved : Byte} (landing : Byte) (s : State)
    (h : positionOf position = none ∨ 1 < occupancy.toNat ∨ reserved ≠ 0) :
    judgeReport position landing occupancy reserved s =
      (s, .check .badField (if positionOf position = none then 1 else if 1 < occupancy.toNat then 3 else 4)) := by
  simp only [judgeReport, carReportBadField_some h]
  rfl

theorem judgeReport_taken {position occupancy : Byte} {p : Position} (landing : Byte) (s : State)
    (hp : positionOf position = some p) (ho : occupancy.toNat ≤ 1) :
    judgeReport position landing occupancy 0 s =
      acceptWithState (actOnReport p (noteReport p landing occupancy s)) := by
  have hb : carReportBadField position occupancy 0 = none := by
    simp [carReportBadField, hp, ho]
  simp only [judgeReport, hb, hp, takeReport_eq]

theorem exec_carReport_taken {s : State} {position occupancy : Byte} {p : Position} (ht : Taking s) (landing : Byte)
    (hp : positionOf position = some p) (ho : occupancy.toNat ≤ 1) :
    exec (.carReport position landing occupancy 0) s = .next
      (respond (.accepted (stateData (actOnReport p (noteReport p landing occupancy (requestTaken s)))))
        (actOnReport p (noteReport p landing occupancy (requestTaken s)))) := by
  simp only [exec, execCarReport, takeRequest_taking ht, judgeReport_taken landing _ hp ho, acceptWithState]

theorem exec_carReport_refused {s : State} {position occupancy reserved : Byte} (ht : Taking s) (landing : Byte)
    (h : positionOf position = none ∨ 1 < occupancy.toNat ∨ reserved ≠ 0) :
    exec (.carReport position landing occupancy reserved) s = .next (respond
      (.check .badField (if positionOf position = none then 1 else if 1 < occupancy.toNat then 3 else 4))
      (requestTaken s)) := by
  simp only [exec, execCarReport, takeRequest_taking ht, judgeReport_refused landing _ h]

/-- Settles O32: the report noted in every state, then acted on by state. -/
theorem carReportTaken : Obligations.CarReportTaken := by
  constructor
  · intro s position landing occupancy p htake hp ho
    have hexec := exec_carReport_taken htake landing hp ho
    obtain ⟨attention, due, remarked, hn, hatt, hsilent⟩ := noteReport_eq p landing occupancy (requestTaken s)
    rw [hn] at hexec
    have hacts := actOnReport_acts p (noted p landing occupancy attention due remarked (requestTaken s))
    obtain ⟨hlink, hidle, hreason⟩ := hacts.link
    obtain ⟨hocc, hhold⟩ := hacts.occupancy
    have htrip (h : s.seq.trip ≠ none) : s.seq.trip.map (reclassed occupancy) ≠ none := by simpa using h
    refine ⟨_, hexec, ⟨rfl, hidle⟩, hreason, hlink, hacts.report,
      fun h => ⟨hocc.trans (by simp [noted, h]), hhold.trans (by simp [noted, h]; rfl)⟩,
      fun h => ⟨hocc.trans (by simp [noted, h]; rfl), hhold.trans (by simp [noted, h]; rfl)⟩, fun hne => ?_,
      fun h => hacts.lockout.trans (by rw [h]; rfl), fun h => hacts.lockout.trans (by rw [h]; rfl),
      fun h => hacts.lockout.trans (by rw [h]; rfl),
      respond_frame hacts.frame _, hacts.seq, hacts.con, hacts.state, fun ha he hf => ?_,
      fun ha => actOnReport_assess p ha, fun hs hnone hl => ?_,
      fun hs hw => actOnReport_wait_effect p hs (hw.symm.imp_right htrip), fun hf => ?_⟩
    · by_cases h : s.seq.trip.map (reclassed occupancy) = s.seq.trip
      · exact hacts.trip fun he => hne (he.trans h)
      · exact hacts.attention (hatt h)
    · rw [actOnReport_other (by exact ha) (by exact he) (by exact hf)]
      exact ⟨rfl, rfl, rfl, rfl⟩
    · exact actOnReport_wake_effect p (n := noted p landing occupancy attention due remarked (requestTaken s)) hs hl
        (by simp [noted, requestTaken, hnone])
    · rw [actOnReport_fallback (by exact hf)]
      obtain ⟨hcon, hrunp, hspd, hmark⟩ := reportInFallback_frame p
        (noted p landing occupancy attention due remarked (requestTaken s))
      refine ⟨hcon.trans ?_, hrunp, hspd, hmark.trans ?_, fun h => ?_, fun hl hm hnone => ?_⟩
      · obtain ⟨rfl, rfl⟩ := hsilent (by rw [show (requestTaken s).seq.state = _ from hf]; rfl)
        rfl
      · simp [noted, requestTaken]
      · exact reportInFallback_trip_kept (h.imp_right (.imp_right htrip))
      · subst hl
        exact reportInFallback_wake_effect
          (n := noted .atLanding landing occupancy attention due remarked (requestTaken s)) hm
          (by simp [noted, requestTaken, hnone])
  · intro s position landing occupancy reserved htake hbad
    exact ⟨_, exec_carReport_refused htake landing hbad, respond_check_refused rfl _ _, ⟨rfl, rfl, rfl, rfl⟩, rfl⟩

end Sys2Proof.Machine
end

section
/-!
TRIP-REQUEST: what refuses it in the order of R138, the state and the reply of an accepted one (R139, R160), and from
these O33.
-/

namespace Sys2Proof.Machine

/-! ### What refuses a TRIP-REQUEST by state and record (R138, R160, R162) -/

theorem tripRequestRefusal_isolated {s : State} (h : s.seq.state = .isolated) :
    tripRequestRefusal s = some (.check .isolated 0) := by
  simp only [tripRequestRefusal, h]

theorem tripRequestRefusal_wrongState {s : State}
    (h : s.seq.state = .dormant ∨ s.seq.state = .awaitSupply ∨ s.seq.state = .noSupply ∨ s.seq.state = .joining ∨
      s.seq.state = .assess ∨ s.seq.state = .landed ∨ s.seq.state = .parked) :
    tripRequestRefusal s = some (.check .wrongState s.seq.state.code) := by
  rcases h with h | h | h | h | h | h | h <;> simp only [tripRequestRefusal, h]

theorem tripRequestRefusal_active {s : State} {x : Trip} (ht : s.seq.trip = some x)
    (h : s.seq.state = .evacRun ∨ s.seq.state = .serviceWait ∨ s.seq.state = .serviceRun ∨
      s.seq.state = .shedPending ∨ s.seq.state = .fallback) :
    tripRequestRefusal s = some (.check .tripActive x.id.val) := by
  rcases h with h | h | h | h | h <;> simp [tripRequestRefusal, h, ht, tripIdInHand]

/-- Where trips are taken, an ENDING record is waited for and any other stands in the way (R138). -/
theorem tripRequestRefusal_record {s : State} {x : Trip} (ht : s.seq.trip = some x)
    (h : s.seq.state = .evacWait ∨ s.seq.state = .serviceIdle) :
    tripRequestRefusal s = some (if x.phase = .ending then .busy else .check .tripActive x.id.val) := by
  rcases h with h | h <;> by_cases hp : x.phase = .ending <;> simp [tripRequestRefusal, h, ht, hp, tripIdInHand]

theorem tripRequestRefusal_locked {s : State} (hs : s.seq.state = .serviceIdle) (ht : s.seq.trip = none)
    (hl : s.seq.lockout = true) : tripRequestRefusal s = some (.check .positionLost 0) := by
  simp [tripRequestRefusal, hs, ht, hl]

theorem tripRequestRefusal_none {s : State} (ht : s.seq.trip = none)
    (h : s.seq.state = .evacWait ∨ (s.seq.state = .serviceIdle ∧ s.seq.lockout = false) ∨ s.seq.state = .fallback) :
    tripRequestRefusal s = none := by
  rcases h with h | ⟨h, hl⟩ | h <;> simp [tripRequestRefusal, *]

/-! ### The fields of a TRIP-REQUEST (R4, R138) -/

/-- The load judged: an overload raises RANGE (R4). -/
def loadJudged (load : Byte) (s : State) : State := raiseIf (decide (125 < load.toNat)) .range s

/-- The load judged, with the ATTENTION flag that it leaves. -/
def rangeJudged (load : Byte) (attention : Bool) (s : State) : State :=
  { s with
    adm := { s.adm with conditions := { s.adm.conditions with
      range := s.adm.conditions.range || decide (125 < load.toNat) } }
    link := { s.link with attention := attention } }

theorem rangeJudged_overload {load : Byte} (h : 125 < load.toNat) (attention : Bool) (s : State) :
    (rangeJudged load attention s).adm.conditions = { s.adm.conditions with range := true } := by
  simp only [rangeJudged, h, decide_true, Bool.or_true]

theorem loadJudged_eq (load : Byte) (s : State) : ∃ attention, loadJudged load s = rangeJudged load attention s := by
  rw [loadJudged]
  unfold rangeJudged
  cases decide (125 < load.toNat)
  · exact ⟨s.link.attention, by rw [Bool.or_false]; rfl⟩
  · rw [Bool.or_true]
    cases hr : s.adm.conditions.range
    · exact ⟨true, by simp only [raiseIf, raise, Conditions.holds, hr]; rfl⟩
    · exact ⟨s.link.attention, by simp only [raiseIf, raise, Conditions.holds, hr, if_true]; rw [← hr]⟩

theorem loadJudged_conf (load : Byte) (s : State) : conf (loadJudged load s) = conf s := by
  simp [conf, loadJudged]

theorem judgeTripRequest_refused {s : State} {a : Answer} (h : tripRequestRefusal s = some a)
    (direction load reserved : Byte) : judgeTripRequest direction load reserved s = (s, a) := by
  simp only [judgeTripRequest, h]

theorem judgeTripRequest_direction {s : State} {direction : Byte} (h : tripRequestRefusal s = none)
    (hd : directionOf direction = none) (load reserved : Byte) :
    judgeTripRequest direction load reserved s = (s, .check .badField 1) := by
  simp only [judgeTripRequest, h, hd, refuse]

theorem judgeTripRequest_fields {s : State} {direction : Byte} {dir : Direction} (h : tripRequestRefusal s = none)
    (hd : directionOf direction = some dir) (load reserved : Byte) :
    judgeTripRequest direction load reserved s =
      if (decide (125 < load.toNat) && (conf s).unmaskRange) = true then (loadJudged load s, .check .badField 2)
      else if reserved ≠ 0 then (loadJudged load s, .check .badField 3)
      else acceptTrip dir load (loadJudged load s) := by
  rw [← loadJudged_conf load s]
  simp only [judgeTripRequest, h, hd]
  rfl

theorem judgeTripRequest_load {s : State} {direction load : Byte} (h : tripRequestRefusal s = none)
    (hd : directionOf direction ≠ none) (hl : 125 < load.toNat) (hu : (conf s).unmaskRange = true) (reserved : Byte) :
    judgeTripRequest direction load reserved s = (loadJudged load s, .check .badField 2) := by
  obtain ⟨dir, hdir⟩ := Option.ne_none_iff_exists'.mp hd
  rw [judgeTripRequest_fields h hdir, if_pos (by simp [hl, hu])]

theorem judgeTripRequest_reserved {s : State} {direction load reserved : Byte} (h : tripRequestRefusal s = none)
    (hd : directionOf direction ≠ none) (hl : load.toNat ≤ 125 ∨ (conf s).unmaskRange = false) (hr : reserved ≠ 0) :
    judgeTripRequest direction load reserved s = (loadJudged load s, .check .badField 3) := by
  obtain ⟨dir, hdir⟩ := Option.ne_none_iff_exists'.mp hd
  have hp : ¬(decide (125 < load.toNat) && (conf s).unmaskRange) = true := by rcases hl with hl | hl <;> simp [hl]
  rw [judgeTripRequest_fields h hdir, if_neg hp, if_pos hr]

theorem judgeTripRequest_accepted {s : State} {direction load : Byte} {dir : Direction}
    (h : tripRequestRefusal s = none) (hd : directionOf direction = some dir)
    (hl : load.toNat ≤ 125 ∨ (conf s).unmaskRange = false) :
    judgeTripRequest direction load 0 s = acceptTrip dir load (loadJudged load s) := by
  have hp : ¬(decide (125 < load.toNat) && (conf s).unmaskRange) = true := by rcases hl with hl | hl <;> simp [hl]
  rw [judgeTripRequest_fields h hd, if_neg hp, if_neg (by simp)]

/-! ### The trip accepted (R139, R160) -/

/-- The figures of a requested run: those of its load, held at 125 (R4, R11). -/
def requestedFigures (dir : Direction) (load : Byte) (s : State) : Figures :=
  runFigures (conf s) (signedDemand (conf s).bal (min 125 load.toNat) dir)

/-- The record of an accepted request, before a start in FALLBACK. -/
def tripRecorded (dir : Direction) (load : Byte) (s : State) : State :=
  match s.seq.state with
  | .serviceIdle =>
    let s := postClaim (createTrip .service (serviceClass s) .serviceIdle (requestedFigures dir load s) s)
    enterServiceWait { s with seq := { s.seq with idleTimer := .stopped, agingTimer := .running s.now } }
  | .fallback => createTrip .evacuation (evacClass s) .fallback (requestedFigures dir load s) s
  | _ => postClaim (createTrip .evacuation (evacClass s) .evacWait (requestedFigures dir load s) s)

/-- The reply to an accepted request: id, class and state (R171). -/
def tripReply (recorded started : State) : Answer :=
  .accepted [octet recorded.seq.lastTripId.val, octet ((recorded.seq.trip.map Trip.cls).getD 0),
    octet started.seq.state.code]

/-- A record made in FALLBACK starts in the first half of the own window (R161, log 27). -/
def startRecorded (s : State) : State := if s.seq.state = .fallback then startIfOpen s else s

theorem startRecorded_waits {s : State} (h : s.seq.state ≠ .fallback) : startRecorded s = s := if_neg h

theorem startRecorded_fallback {s : State} (h : s.seq.state = .fallback) : startRecorded s = startIfOpen s := if_pos h

theorem acceptTrip_eq (dir : Direction) (load : Byte) (s : State) :
    acceptTrip dir load s = (startRecorded (tripRecorded dir load s),
      tripReply (tripRecorded dir load s) (startRecorded (tripRecorded dir load s))) := rfl

theorem tripRecorded_evacWait {s : State} (h : s.seq.state = .evacWait) (dir : Direction) (load : Byte) :
    tripRecorded dir load s = { s with
      seq := { s.seq with
        trip := some (newTrip .evacuation (evacClass s) .evacWait (requestedFigures dir load s) s)
        tripCounter := s.seq.tripCounter + 1, lastTripId := s.seq.tripCounter }
      adm := { s.adm with view := { tripId := s.seq.tripCounter } }
      con := { s.con with claimSlot := some { kind := .run, tripId := s.seq.tripCounter } }
      link := { s.link with attention := true } } := by
  simp only [tripRecorded, h, createTrip_eq]
  rfl

theorem tripRecorded_fallback {s : State} (h : s.seq.state = .fallback) (dir : Direction) (load : Byte) :
    tripRecorded dir load s = { s with
      seq := { s.seq with
        trip := some (newTrip .evacuation (evacClass s) .fallback (requestedFigures dir load s) s)
        tripCounter := s.seq.tripCounter + 1, lastTripId := s.seq.tripCounter }
      adm := { s.adm with view := { tripId := s.seq.tripCounter } }
      link := { s.link with attention := true } } := by
  simp only [tripRecorded, h, createTrip_eq]

/-- A service run leaves SERVICE_IDLE for SERVICE_WAIT, its aging started (R139; PRESENCE due: log 14). -/
theorem tripRecorded_serviceIdle {s : State} (h : s.seq.state = .serviceIdle) (dir : Direction) (load : Byte) :
    tripRecorded dir load s = { s with
      seq := { s.seq with
        state := .serviceWait, shdn := false
        trip := some (newTrip .service (serviceClass s) .serviceIdle (requestedFigures dir load s) s)
        tripCounter := s.seq.tripCounter + 1, lastTripId := s.seq.tripCounter
        idleTimer := .stopped, agingTimer := .running s.now }
      adm := { s.adm with view := { tripId := s.seq.tripCounter } }
      con := { s.con with
        claimSlot := some { kind := .run, tripId := s.seq.tripCounter }
        presenceDue := true, remarked := s.con.remarked || s.con.attempt.serves .presence }
      link := { s.link with attention := true } } := by
  have he : tripRecorded dir load s = enterServiceWait
      { postClaim (createTrip .service (serviceClass s) .serviceIdle (requestedFigures dir load s) s) with
        seq := { (createTrip .service (serviceClass s) .serviceIdle (requestedFigures dir load s) s).seq with
          idleTimer := .stopped, agingTimer := .running s.now } } := by
    simp only [tripRecorded, h]
    rfl
  rw [he, enterServiceWait, goTo_other (by rw [createTrip_eq]; simp [h]), markPresence_driving rfl]
  rfl

/-! ### The rest of the car link -/

theorem loadJudged_linkElse (load : Byte) (s : State) : LinkElse s (loadJudged load s) := by
  simp [LinkElse, loadJudged]

theorem acceptTrip_linkElse (dir : Direction) (load : Byte) (s : State) : LinkElse s (acceptTrip dir load s).1 := by
  have hr : LinkElse s (tripRecorded dir load s) := by
    unfold tripRecorded
    split <;> simp [LinkElse]
  refine hr.trans ?_
  rw [acceptTrip_eq, startRecorded]
  split <;> simp [LinkElse]

theorem judgeTripRequest_linkElse (direction load reserved : Byte) (s : State) :
    LinkElse s (judgeTripRequest direction load reserved s).1 := by
  cases hr : tripRequestRefusal s with
  | some a => rw [judgeTripRequest_refused hr]; exact ⟨rfl, rfl, rfl, rfl⟩
  | none =>
    cases hd : directionOf direction with
    | none => rw [judgeTripRequest_direction hr hd]; exact ⟨rfl, rfl, rfl, rfl⟩
    | some dir =>
      rw [judgeTripRequest_fields hr hd]
      split_ifs
      · exact loadJudged_linkElse load s
      · exact loadJudged_linkElse load s
      · exact (loadJudged_linkElse load s).trans (acceptTrip_linkElse dir load _)

theorem exec_tripRequest {s : State} (h : Taking s) (direction load reserved : Byte) :
    exec (.tripRequest direction load reserved) s = .next
      (respond (judgeTripRequest direction load reserved (requestTaken s)).2
        (judgeTripRequest direction load reserved (requestTaken s)).1) := by
  simp only [exec, execTripRequest, takeRequest_taking h]

/-- A TRIP-REQUEST that passes every check is accepted on the state in which its load has been judged. -/
theorem exec_tripRequest_accepted {s : State} {direction load : Byte} {dir : Direction} (h : Taking s)
    (hr : tripRequestRefusal s = none) (hd : directionOf direction = some dir)
    (hl : (conf s).unmaskRange = false ∨ load.toNat ≤ 125) :
    ∃ attention, exec (.tripRequest direction load 0) s = .next
      (respond (acceptTrip dir load (rangeJudged load attention (requestTaken s))).2
        (acceptTrip dir load (rangeJudged load attention (requestTaken s))).1) := by
  obtain ⟨attention, hj⟩ := loadJudged_eq load (requestTaken s)
  refine ⟨attention, ?_⟩
  rw [exec_tripRequest h, judgeTripRequest_accepted (s := requestTaken s) hr hd hl.symm, hj]

/-- Settles O33: the two states that take a request, the checks that refuse it, and FALLBACK. -/
theorem tripRequestJudged : Obligations.TripRequestJudged := by
  refine ⟨?_, ?_, ?_⟩
  · intro s direction load dir htake hd htrip hl hs
    obtain ⟨attention, hexec⟩ := exec_tripRequest_accepted htake
      (tripRequestRefusal_none htrip (hs.imp_right .inl)) hd hl
    rw [acceptTrip_eq] at hexec
    rcases hs with hs | ⟨hs, -⟩
    · have hn : s.seq.state ≠ .fallback := by simp [hs]
      rw [tripRecorded_evacWait (by exact hs), startRecorded_waits (by exact hn)] at hexec
      exact ⟨_, _, hexec, rfl, rfl, rfl, rfl, rfl, rfl, rfl, rfl, rfl, rfl, rfl, rfl, ⟨rfl, rfl⟩, ⟨rfl, rfl, rfl, rfl⟩,
        ⟨rfl, rfl⟩, fun _ => ⟨hs, rfl, rfl, rfl, rfl⟩, by simp [hs], rfl, fun _ => rfl, rfl, rfl, rfl⟩
    · rw [tripRecorded_serviceIdle (by exact hs), startRecorded_waits (by simp)] at hexec
      exact ⟨_, _, hexec, rfl, rfl, rfl, rfl, rfl, rfl, rfl, rfl, rfl, rfl, rfl, rfl, ⟨rfl, rfl⟩, ⟨rfl, rfl, rfl, rfl⟩,
        ⟨rfl, rfl⟩, by simp [hs], fun _ => ⟨rfl, rfl, rfl, rfl, rfl, rfl, rfl⟩, rfl, by simp [hs], rfl, rfl, rfl⟩
  · intro s direction load reserved htake
    have hlink := respond_linkElse ((requestTaken_linkElse s).trans
      (judgeTripRequest_linkElse direction load reserved (requestTaken s)))
      (judgeTripRequest direction load reserved (requestTaken s)).2
    refine ⟨_, exec_tripRequest htake direction load reserved, hlink, fun hs => ?_, fun hs => ?_,
      fun x hx => ⟨fun hs => ?_, fun hs => ⟨fun hp => ?_, fun hp => ?_⟩⟩, fun hs hx hlock => ?_,
      fun hx hs => ⟨fun hd => ?_, fun hd hl hu => ?_, fun hd hl hr => ?_⟩⟩
    · rw [judgeTripRequest_refused (tripRequestRefusal_isolated (s := requestTaken s) hs)]
      exact requestTaken_refused ..
    · rw [judgeTripRequest_refused (tripRequestRefusal_wrongState (s := requestTaken s) hs)]
      exact requestTaken_refused ..
    · rw [judgeTripRequest_refused (tripRequestRefusal_active (s := requestTaken s) hx hs)]
      exact requestTaken_refused ..
    · rw [judgeTripRequest_refused (tripRequestRefusal_record (s := requestTaken s) hx hs), if_pos hp]
      exact requestTaken_busy s
    · rw [judgeTripRequest_refused (tripRequestRefusal_record (s := requestTaken s) hx hs), if_neg hp]
      exact requestTaken_refused ..
    · rw [judgeTripRequest_refused (tripRequestRefusal_locked (s := requestTaken s) hs hx hlock)]
      exact requestTaken_refused ..
    · rw [judgeTripRequest_direction (tripRequestRefusal_none (s := requestTaken s) hx hs) hd]
      exact requestTaken_refused ..
    · obtain ⟨attention, hj⟩ := loadJudged_eq load (requestTaken s)
      rw [judgeTripRequest_load (tripRequestRefusal_none (s := requestTaken s) hx hs) hd hl hu, hj]
      exact ⟨respond_check_refused rfl _ _, rangeJudged_overload hl attention _, rfl⟩
    · obtain ⟨attention, hj⟩ := loadJudged_eq load (requestTaken s)
      rw [judgeTripRequest_reserved (tripRequestRefusal_none (s := requestTaken s) hx hs) hd hl hr, hj]
      exact ⟨respond_check_refused rfl _ _, rfl, rfl⟩
  · intro s direction load dir htake hd htrip hl hs
    obtain ⟨attention, hexec⟩ := exec_tripRequest_accepted htake
      (tripRequestRefusal_none htrip (.inr (.inr hs))) hd hl
    rw [acceptTrip_eq, tripRecorded_fallback (by exact hs), startRecorded_fallback (by exact hs)] at hexec
    cases ho : firstHalfOpen s
    · rw [startIfOpen_closed (by exact ho)] at hexec
      exact ⟨_, _, hexec, rfl, rfl, rfl, rfl, rfl, rfl, rfl, rfl, rfl, hs, by rw [← hs]; exact ⟨rfl, rfl⟩, ⟨rfl, rfl⟩,
        ⟨rfl, rfl, rfl, rfl⟩, rfl, fun _ => ⟨rfl, rfl⟩, by simp, rfl⟩
    · rw [startIfOpen_open (by exact ho), startFallbackTrip_run rfl rfl rfl] at hexec
      exact ⟨_, _, hexec, rfl, rfl, rfl, rfl, rfl, rfl, rfl, rfl, rfl, hs, by rw [← hs]; exact ⟨rfl, rfl⟩, ⟨rfl, rfl⟩,
        ⟨rfl, rfl, rfl, rfl⟩, rfl, by simp, fun _ => ⟨rfl, rfl⟩, rfl⟩

end Sys2Proof.Machine
end

section
/-!
The CONFIGURE record: the model's reading of it gives the values of R173's table as Safety.lean writes them out, and its
judgement the first field that the table does not accept.
-/

namespace Sys2Proof.Machine

/-! ### The values of the record (R173) -/

/-- The number that octets spell, high octet first. -/
def spelled (octets : List Byte) : Nat := octets.foldl (fun n b => n * 256 + b.toNat) 0

theorem spelled_octet (record : List Byte) (i : Nat) :
    spelled ((record.drop i).take 1) = (record.getD i 0).toNat := by
  rw [List.getD_eq_getElem?_getD, ← List.head?_drop]
  cases record.drop i with
  | nil => rfl
  | cons b rest => exact (congrArg (· + b.toNat) (Nat.zero_mul 256)).trans (Nat.zero_add _)

theorem spelled_word {record : List Byte} (hl : record.length = 42) {i : Nat} (h : i < 41) :
    spelled ((record.drop i).take 2) = 256 * (record.getD i 0).toNat + (record.getD (i + 1) 0).toNat := by
  have hi : i + 1 < record.length := by omega
  have hd : record.drop i = record[i] :: record[i + 1] :: record.drop (i + 2) := by
    rw [List.drop_eq_getElem_cons (by omega), List.drop_eq_getElem_cons hi]
  have h0 : record.getD i 0 = record[i] := List.getD_eq_getElem _ _ (by omega)
  have h1 : record.getD (i + 1) 0 = record[i + 1] := List.getD_eq_getElem _ _ hi
  rw [hd, h0, h1]
  simp only [spelled, List.take, List.foldl]
  omega

/-- One field read: zero selects the default of its row. -/
def fieldValue (r : FieldRule) (octets : List Byte) : Nat :=
  if spelled octets = 0 then r.zero.getD 0 else spelled octets

theorem fieldValues_cons (r : FieldRule) (rules : List FieldRule) (record : List Byte) (i : Nat) :
    fieldValues (r :: rules) (record.drop i) =
      fieldValue r ((record.drop i).take r.octets) :: fieldValues rules (record.drop (i + r.octets)) := by
  rw [← List.drop_drop]
  rfl

theorem fieldValue_plain (n : Nat) (a : Accepted) (octets : List Byte) :
    fieldValue ⟨n, none, a⟩ octets = spelled octets := by
  unfold fieldValue
  split
  · rename_i h; exact h.symm
  · rfl

theorem fieldValue_default (n d : Nat) (a : Accepted) (octets : List Byte) :
    fieldValue ⟨n, some d, a⟩ octets = if spelled octets = 0 then d else spelled octets := rfl

/-- The fields of a record, read one after the other, are the values of the table. -/
theorem fieldValues_eq {record : List Byte} (h : record.length = 42) :
    fieldValues fieldRules record = recordValues record := by
  change fieldValues fieldRules (record.drop 0) = _
  simp only [fieldRules, List.cons_append, List.nil_append, fieldValues_cons, fieldValue_plain, fieldValue_default,
    spelled_octet, spelled_word h, Nat.reduceAdd, Nat.reduceLT]
  rfl

/-! ### The first field not accepted (R172, R173) -/

/-- The field at this place, counted from 0, is accepted; so is one beyond the table. -/
def holdsAt (rules : List FieldRule) (values : List Nat) (k : Nat) : Bool :=
  (rules[k]?.map fun r => r.accepted.holds (values.getD k 0)).getD true

theorem firstBadField_none (rules : List FieldRule) (values : List Nat) (index : Nat)
    (h : ∀ k < rules.length, holdsAt rules values k = true) : firstBadField rules values index = none := by
  induction rules generalizing values index with
  | nil => rfl
  | cons r rules ih =>
    cases values with
    | nil => rfl
    | cons v values =>
      have hv : r.accepted.holds v = true := h 0 (by simp)
      rw [firstBadField, if_pos hv]
      exact ih values (index + 1) fun k hk => h (k + 1) (by simpa using hk)

theorem firstBadField_some (rules : List FieldRule) (values : List Nat) (index k : Nat)
    (hl : rules.length = values.length) (hbad : holdsAt rules values k = false)
    (hbefore : ∀ j < k, holdsAt rules values j = true) : firstBadField rules values index = some (index + k) := by
  induction rules generalizing values index k with
  | nil => cases hbad
  | cons r rules ih =>
    cases values with
    | nil => cases hl
    | cons v values =>
      cases k with
      | zero =>
        have hv : r.accepted.holds v = false := hbad
        simp only [firstBadField, hv]
        rfl
      | succ k =>
        have hv : r.accepted.holds v = true := hbefore 0 (by simp)
        rw [firstBadField, if_pos hv, ih values (index + 1) k (by simpa using hl) hbad
          fun j hj => hbefore (j + 1) (by omega)]
        congr 1
        omega

/-- Row by row, the table accepts the values that R173 gives. -/
theorem holdsAt_fieldRules (values : List Nat) {k : Nat} (hk : k < 32) :
    holdsAt fieldRules values k = true ↔ AcceptedValue (k + 1) (values.getD k 0) := by
  interval_cases k <;> simp [holdsAt, fieldRules, Accepted.holds, AcceptedValue]

theorem firstBadField_accepted {record : List Byte} (h : FieldsAccepted record) :
    firstBadField fieldRules (recordValues record) 1 = none :=
  firstBadField_none _ _ _ fun k hk => (holdsAt_fieldRules _ hk).mpr (h (k + 1) (by omega) hk)

theorem firstBadField_first {record : List Byte} {k : Nat} (h : FirstBadIndex record k) :
    firstBadField fieldRules (recordValues record) 1 = some k := by
  obtain ⟨h1, h32, hbad, hbefore⟩ := h
  obtain ⟨j, rfl⟩ : ∃ j, k = j + 1 := ⟨k - 1, by omega⟩
  rw [Nat.add_comm j 1]
  refine firstBadField_some _ _ 1 j rfl ?_ fun i hi => ?_
  · rw [← Bool.not_eq_true]
    exact fun hj => hbad ((holdsAt_fieldRules _ (by omega)).mp hj)
  · exact (holdsAt_fieldRules _ (by omega)).mpr (hbefore (i + 1) (by omega) (by omega))

/-! ### The record judged and stored (R13, R172) -/

theorem configureRefusal_straps {station : Nat} (h : station = 0 ∨ station = 63) (values : List Nat) :
    configureRefusal station values = some (.badStation, station) := if_pos h

theorem configureRefusal_badField {station k : Nat} {values : List Nat} (h0 : station ≠ 0) (h63 : station ≠ 63)
    (h : firstBadField fieldRules values 1 = some k) : configureRefusal station values = some (.badField, k) := by
  simp [configureRefusal, h0, h63, h]

/-- With every field accepted, the run limit is judged against half of W and then the station number against CENSUS. -/
theorem configureRefusal_fields {station : Nat} {record : List Byte} (h0 : station ≠ 0) (h63 : station ≠ 63)
    (h : FieldsAccepted record) :
    configureRefusal station (recordValues record) =
      if recordValue record 23 < 2 * recordValue record 20 then some (.badField, 20)
      else if recordValue record 13 < station then some (.badStation, station) else none := by
  have hs : ¬(station = 0 ∨ station = 63) := by simp [h0, h63]
  simp only [configureRefusal, hs, firstBadField_accepted h, if_false]
  rfl

theorem speedOfPercent_percent {v : Nat} (h : v = 25 ∨ v = 50 ∨ v = 75 ∨ v = 100) : (speedOfPercent v).percent = v := by
  rcases h with rfl | rfl | rfl | rfl <;> rfl

theorem acceptedConfiguration_stores {record : List Byte} (h : FieldsAccepted record) :
    StoresRecord record (acceptedConfiguration (recordValues record)) := by
  refine ⟨speedOfPercent_percent (h 7 (by decide) (by decide)), ?_⟩
  have hbit : (recordValue record 24 % 2 == 1) = bitOf (recordValue record 24) 0 := by simp [bitOf]
  simp only [hbit]
  rfl

end Sys2Proof.Machine
end

section
/-!
CONFIGURE: JOINING and AWAIT_SUPPLY as their entries leave them (R122, R124), the state entered from UNCONFIGURED
(R120), and from these, with the record, O27.
-/

namespace Sys2Proof.Machine

/-! ### JOINING and AWAIT_SUPPLY entered (R122, R124) -/

/-- Raising a condition writes no more than the conditions and ATTENTION. -/
theorem raiseIf_writes (p : Bool) (k : Condition) (s : State) :
    ∃ adm attention, raiseIf p k s = { s with adm := adm, link := { s.link with attention := attention } } ∧
      (s.link.attention = true → attention = true) := by
  unfold raiseIf raise
  split
  · split
    · exact ⟨_, _, rfl, id⟩
    · exact ⟨_, _, rfl, fun _ => rfl⟩
  · exact ⟨_, _, rfl, id⟩

theorem releaseShedHold_writes (s : State) :
    ∃ hold, releaseShedHold s = { s with seq := { s.seq with shedHold := hold } } := by
  unfold releaseShedHold
  split
  · exact ⟨_, rfl⟩
  · exact ⟨_, rfl⟩

theorem shedCar_joining {s : State} (h : s.seq.state = .joining) : shedCar s = s := by simp only [shedCar, h]

/-- In JOINING the shed test writes its view and sheds nothing (R151, R154). -/
theorem shedTest_joining {s : State} (h : s.seq.state = .joining) :
    ∃ adm attention, shedTest s = { s with adm := adm, link := { s.link with attention := attention } } ∧
      (s.link.attention = true → attention = true) := by
  have hshed (p : Bool) (k : Condition) (adm : AdmissionUnit) :
      shedCar (raiseIf p k { s with adm := adm }) = raiseIf p k { s with adm := adm } := shedCar_joining (by simp [h])
  have hd : s.seq.state.driving = true := by rw [h]; rfl
  simp only [shedTest, hd, hshed, ite_self, Bool.not_true, Bool.false_eq_true, if_false]
  exact raiseIf_writes ..

/-- In JOINING a roster change reaches the roster, the shed hold and the shed view, and sheds nothing (R28, R154,
R157). -/
theorem changeRoster_joining (r : Roster) {s : State} (h : s.seq.state = .joining) :
    ∃ adm hold attention, changeRoster r s = { s with
        roster := r, adm := adm, seq := { s.seq with shedHold := hold }
        link := { s.link with attention := attention } } ∧
      (s.link.attention = true → attention = true) := by
  rcases changeRoster_cases r s with ⟨-, he⟩ | ⟨-, he⟩
  · exact ⟨s.adm, s.seq.shedHold, s.link.attention, he, id⟩
  · obtain ⟨hold, hr⟩ := releaseShedHold_writes { s with roster := r }
    obtain ⟨adm, attention, ht, ha⟩ :=
      shedTest_joining (s := releaseShedHold { s with roster := r }) (by rw [hr]; exact h)
    exact ⟨adm, hold, attention, by rw [he, rosterChanged, ht, hr], by rw [hr] at ha; exact ha⟩

/-- JOINING entered, with the roster still to be opened (R124). -/
def joiningBegun (s : State) : State :=
  { s with
    adm := { s.adm with ownDemand := none }, supply := { s.supply with settle := .running s.now }
    seq := { s.seq with
      state := .joining, shdn := false, commitment := 0, claimClass := 0, stamp := 0, startWindow := .stopped
      joinTimer := .running s.now, report := { s.seq.report with fresh := false } }
    con := { s.con with presenceTimer := .running s.now }
    link := { s.link with attention := true } }

/-- JOINING entered: the roster opened and PRESENCE due, with a shed view (R19, R124). -/
theorem enterJoining_eq {s : State} (h : s.seq.state ≠ .joining) :
    ∃ adm hold remarked, enterJoining s = { joiningBegun s with
      roster := { isOpen := true }, adm := adm, seq := { (joiningBegun s).seq with shedHold := hold }
      con := { (joiningBegun s).con with presenceDue := true, remarked := remarked } } := by
  have hz : (zeroStanding s).seq.state ≠ .joining := h
  have he : enterJoining s = markPresence (changeRoster { isOpen := true } (joiningBegun s)) := by
    rw [enterJoining, goTo_other hz]
    rfl
  obtain ⟨adm, hold, attention, hr, ha⟩ := changeRoster_joining { isOpen := true } (s := joiningBegun s) rfl
  obtain rfl := ha rfl
  rw [he, hr, markPresence_driving rfl]
  exact ⟨adm, hold, _, rfl⟩

/-- AWAIT_SUPPLY entered with its window (R122). -/
def awaiting (window : Nat) (s : State) : State :=
  { s with
    seq := { s.seq with
      state := .awaitSupply, runp := false, spd := .p25, shdn := false, emop := true
      startWindow := .running s.now, startWindowLength := window }
    link := { s.link with attention := true } }

theorem enterAwaitSupply_eq {s : State} (h : s.seq.state ≠ .awaitSupply) (window : Nat) :
    enterAwaitSupply window s = if s.supply.good then enterJoining (awaiting window s) else awaiting window s := by
  have hh : (holdCar s).seq.state ≠ .awaitSupply := h
  rw [enterAwaitSupply, goTo_other hh]
  rfl

/-! ### CONFIGURE (R70, R120, R172, R177) -/

/-- The record stored, Cap formed and the filters taken. -/
def recordStored (record : List Byte) (s : State) : State :=
  let stored := { s with
    config := some (acceptedConfiguration (recordValues record))
    link := { s.link with
      accept := acceptFilterOf (recordValues record), reject := rejectFilterOf (recordValues record) } }
  { stored with supply := { stored.supply with capHeld := capacityOf stored } }

/-- Cap as the stored SSTEP and RSV give it (R70). -/
theorem recordStored_capHeld (record : List Byte) (s : State) : (recordStored record s).supply.capHeld =
    (s.supply.capCode.val - s.supply.derate) * recordValue record 8 - recordValue record 9 := rfl

theorem recordStored_filters (record : List Byte) (s : State) :
    FilterOf record 27 (recordStored record s).link.accept ∧ FilterOf record 30 (recordStored record s).link.reject :=
  ⟨rfl, rfl⟩

theorem leaveUnconfigured_normal {s : State} (hs : s.seq.state = .unconfigured) (ht : s.supply.trn = .normal) :
    leaveUnconfigured s = { s with
      seq := { s.seq with state := .dormant, shdn := false, runp := true, spd := .p100 }
      link := { s.link with attention := true } } := by
  simp only [leaveUnconfigured, ht]
  rw [goTo_other (by simp [hs])]
  rfl

/-- A session that begins at the CONFIGURE (R120). -/
def sessionBegun (s : State) : State :=
  { s with seq := { s.seq with sessionOrigin := some s.now, firstTakeover := false } }

theorem leaveUnconfigured_emergency {s : State} (hs : s.seq.state = .unconfigured) (ht : s.supply.trn = .emergency) :
    leaveUnconfigured s =
      if s.supply.good then enterJoining (awaiting 60000000 (sessionBegun s))
      else awaiting 60000000 (sessionBegun s) := by
  have hn : (sessionBegun s).seq.state ≠ .awaitSupply := by simp [sessionBegun, hs]
  rw [show s.supply.good = (sessionBegun s).supply.good from rfl, ← enterAwaitSupply_eq hn]
  simp only [leaveUnconfigured, ht]
  rfl

/-- Whatever state is entered, the store, the filters and the line are kept, and ATTENTION is set (R120, R170). -/
theorem leaveUnconfigured_frame {s : State} (hs : s.seq.state = .unconfigured) :
    (leaveUnconfigured s).config = s.config ∧ (leaveUnconfigured s).supply.capHeld = s.supply.capHeld ∧
      (leaveUnconfigured s).link = { s.link with attention := true } ∧ (leaveUnconfigured s).station = s.station ∧
      (leaveUnconfigured s).pins = s.pins ∧ (leaveUnconfigured s).line = s.line := by
  cases ht : s.supply.trn with
  | normal =>
    rw [leaveUnconfigured_normal hs ht]
    exact ⟨rfl, rfl, rfl, rfl, rfl, rfl⟩
  | emergency =>
    obtain ⟨adm, hold, remarked, hjoin⟩ :=
      enterJoining_eq (s := awaiting 60000000 (sessionBegun s)) (by simp [awaiting])
    rw [leaveUnconfigured_emergency hs ht, hjoin]
    split
    · exact ⟨rfl, rfl, rfl, rfl, rfl, rfl⟩
    · exact ⟨rfl, rfl, rfl, rfl, rfl, rfl⟩

theorem leaveUnconfigured_dormant {s : State} (hs : s.seq.state = .unconfigured) (ht : s.supply.trn = .normal) :
    (leaveUnconfigured s).seq.state = .dormant ∧ (leaveUnconfigured s).seq.runp = true ∧
      (leaveUnconfigured s).seq.spd = .p100 := by
  rw [leaveUnconfigured_normal hs ht]
  exact ⟨rfl, rfl, rfl⟩

/-- A session begins, waiting for the plant or joining at once (R120, R122). -/
theorem leaveUnconfigured_session {s : State} (hs : s.seq.state = .unconfigured) (ht : s.supply.trn = .emergency) :
    (leaveUnconfigured s).seq.runp = false ∧ (leaveUnconfigured s).seq.spd = .p25 ∧
      (leaveUnconfigured s).seq.emop = true ∧ (leaveUnconfigured s).seq.firstTakeover = false ∧
      (leaveUnconfigured s).seq.sessionOrigin = some s.now ∧
      (s.supply.good = true → (leaveUnconfigured s).seq.state = .joining) ∧
      (s.supply.good = false → (leaveUnconfigured s).seq.state = .awaitSupply ∧
        (leaveUnconfigured s).seq.startWindow = .running s.now ∧
        (leaveUnconfigured s).seq.startWindowLength = 60000000) := by
  obtain ⟨adm, hold, remarked, hjoin⟩ :=
    enterJoining_eq (s := awaiting 60000000 (sessionBegun s)) (by simp [awaiting])
  rw [leaveUnconfigured_emergency hs ht, hjoin]
  cases s.supply.good
  · exact ⟨rfl, rfl, rfl, rfl, rfl, by simp, fun _ => ⟨rfl, rfl, rfl⟩⟩
  · exact ⟨rfl, rfl, rfl, rfl, rfl, fun _ => rfl, by simp⟩

/-- The reply to an accepted record (R171). -/
def configureReply (s : State) : Answer :=
  .accepted (octet s.station :: word16 (conf s).dmax ++ word16 (conf s).gmax ++ [octet s.seq.state.code])

theorem judgeConfigure_configured {s : State} (h : s.seq.state ≠ .unconfigured) (record : List Byte) :
    judgeConfigure record s = (s, .check .alreadyConfigured 0) := by
  simp [judgeConfigure, configured, h]

theorem judgeConfigure_refused {s : State} {record : List Byte} {reason : Reason} {detail : Nat}
    (hs : s.seq.state = .unconfigured) (hl : record.length = 42)
    (h : configureRefusal s.station (recordValues record) = some (reason, detail)) :
    judgeConfigure record s = (s, .check reason detail) := by
  simp [judgeConfigure, configured, hs, fieldValues_eq hl, h]

theorem judgeConfigure_accepted {s : State} {record : List Byte} (hs : s.seq.state = .unconfigured)
    (hl : record.length = 42) (h : configureRefusal s.station (recordValues record) = none) :
    judgeConfigure record s =
      (leaveUnconfigured (recordStored record s), configureReply (leaveUnconfigured (recordStored record s))) := by
  simp only [judgeConfigure, configured, hs, fieldValues_eq hl, h]
  rfl

theorem exec_configure {s : State} {record : List Byte} (h : linkReady s = true) (hl : record.length = 42) :
    exec (.configure record) s = .next
      (respond (judgeConfigure record (requestTaken s)).2 (judgeConfigure record (requestTaken s)).1) := by
  simp only [exec, execConfigure, hl, if_true, takeRequest_taken 1 true _ s h (.inr rfl)]

/-- A record refused stores nothing: the reply and the held reason alone are written. -/
theorem judgement_refused (s : State) (r : Reason) (d : Nat) :
    RefusedWith (respond (.check r d) (requestTaken s)) r d ∧ LinkElse s (respond (.check r d) (requestTaken s)) ∧
      respond (.check r d) (requestTaken s) = { s with link := (respond (.check r d) (requestTaken s)).link } :=
  ⟨respond_check_refused rfl r d, respond_linkElse (requestTaken_linkElse s) _, rfl⟩

theorem configure_refused {s : State} {record : List Byte} {reason : Reason} {detail : Nat}
    (hs : s.seq.state = .unconfigured) (hl : record.length = 42)
    (h : configureRefusal s.station (recordValues record) = some (reason, detail)) :
    let t := respond (judgeConfigure record (requestTaken s)).2 (judgeConfigure record (requestTaken s)).1
    RefusedWith t reason detail ∧ LinkElse s t ∧ t = { s with link := t.link } := by
  rw [judgeConfigure_refused (s := requestTaken s) hs hl h]
  exact judgement_refused s reason detail

/-- Settles O27: the record accepted under either reading of TRN, and refused in the order of R172. -/
theorem configureJudged : Obligations.ConfigureJudged := by
  constructor
  · intro s record hready hs hl h0 h63 haccepted hrun hcensus
    have hrefusal : configureRefusal (requestTaken s).station (recordValues record) = none := by
      rw [configureRefusal_fields (by exact h0) (by exact h63) haccepted, if_neg (by omega),
        if_neg (by exact not_lt.mpr hcensus)]
    have hexec := exec_configure hready hl
    rw [judgeConfigure_accepted (by exact hs) hl hrefusal] at hexec
    obtain ⟨hconfig, hcap, hlink, hstation, hpins, hline⟩ :=
      leaveUnconfigured_frame (s := recordStored record (requestTaken s)) hs
    have hsession := leaveUnconfigured_session (s := recordStored record (requestTaken s)) hs
    have hdormant := leaveUnconfigured_dormant (s := recordStored record (requestTaken s)) hs
    generalize leaveUnconfigured (recordStored record (requestTaken s)) = u at *
    have hconf : conf u = acceptedConfiguration (recordValues record) := by rw [conf, hconfig]; rfl
    have hown : u.station = s.station := hstation
    obtain ⟨haccept, hreject⟩ : FilterOf record 27 u.link.accept ∧ FilterOf record 30 u.link.reject := by
      rw [hlink]
      exact recordStored_filters record (requestTaken s)
    have hqueue : u.link.queue = s.link.queue := by rw [hlink]; rfl
    exact ⟨_, conf u, hexec, hconf ▸ hconfig, hconf ▸ acceptedConfiguration_stores haccepted, hcap, haccept, hreject,
      hdormant, hsession, ⟨by rw [← hown]; rfl, congrArg CarLink.receiver hlink⟩,
      ⟨congrArg CarLink.reason hlink, congrArg CarLink.detail hlink⟩, congrArg CarLink.attention hlink, hstation, hpins,
      hline, hqueue⟩
  · intro s record hready hl
    refine ⟨_, exec_configure hready hl, fun hs => ?_,
      fun hs hstraps => configure_refused hs hl (configureRefusal_straps hstraps _),
      fun hs h0 h63 => ⟨fun k hk => configure_refused hs hl (configureRefusal_badField h0 h63 (firstBadField_first hk)),
        fun haccepted hrun => configure_refused hs hl ?_, fun haccepted hrun hcensus => configure_refused hs hl ?_⟩⟩
    · rw [judgeConfigure_configured (by exact hs)]
      exact judgement_refused ..
    · rw [configureRefusal_fields h0 h63 haccepted, if_pos hrun]
    · rw [configureRefusal_fields h0 h63 haccepted, if_neg (not_lt.mpr hrun), if_pos hcensus]

end Sys2Proof.Machine
end

section
/-!
What the canonical form of the roster reads (R18, R32), kept by the operations that write no roster: the station number,
the roster, and a CLAIM in hand, which apart from a choice is the one before or none.
-/

namespace Sys2Proof.Machine

/-! ### Operations that keep the roster -/

/-- Station number and roster are kept, and the attempt in hand is the one before or none. -/
structure RosterKept (s t : State) : Prop where
  station : t.station = s.station
  roster : t.roster = s.roster
  attempt : t.con.attempt = s.con.attempt ∨ t.con.attempt = .none

theorem RosterKept.refl (s : State) : RosterKept s s := ⟨rfl, rfl, .inl rfl⟩

theorem RosterKept.trans {s t u : State} (h : RosterKept s t) (g : RosterKept t u) : RosterKept s u := by
  refine ⟨g.station.trans h.station, g.roster.trans h.roster, ?_⟩
  rcases g.attempt with ha | ha
  · rw [ha]; exact h.attempt
  · exact .inr ha

theorem RosterSound.kept {s t : State} (h : RosterSound s) (k : RosterKept s t) : RosterSound t := by
  refine ⟨k.roster ▸ h.rising, ?_, k.roster ▸ h.mark, k.roster ▸ h.closed, fun c hc => ?_⟩
  · rw [k.roster, k.station]; exact h.record
  · rcases k.attempt with ha | ha
    · exact h.onItsWay c (by rwa [ha] at hc)
    · simp [ha] at hc

/-! ### The attempt in hand through the larger operations (R113 to R116, R129, R144) -/

theorem returnToOrigin_attempt (o : Origin) (s : State) : (returnToOrigin o s).con.attempt = s.con.attempt := by simp

theorem endCancelled_attempt (completed : Bool) (t : Trip) (s : State) :
    (endCancelled completed t s).con.attempt = s.con.attempt ∨ (endCancelled completed t s).con.attempt = .none := by
  have hend : (endTrip s).con.attempt = s.con.attempt := by simp
  simp only [endCancelled, answerHeld_keeps]
  by_cases ho : (endTrip s).seq.shedOwed = true
  · rw [if_pos ho, enterParked_attempt, ← hend]
    exact postShed_attempt ..
  · rw [if_neg ho, ← hend]
    cases completed
    · exact .inl (returnToOrigin_attempt ..)
    · simpa only [if_true, returnToOrigin_attempt] using postRelease_attempt _ (endTrip s)

/-- A failed attempt is NONE (R114). -/
theorem failSlot_attempt (b : Body) (s : State) : (failSlot b s).con.attempt = .none := by
  cases b with
  | release r => rfl
  | presence p => rfl
  | claim c =>
    simp only [failSlot]
    split
    · split
      · exact (endCancelled_attempt ..).elim id id
      · rfl
    · simp

theorem leaveService_attempt (s : State) : (leaveService s).con.attempt = .none := rfl

theorem enterFallback_attempt (s : State) : (enterFallback s).con.attempt = .none := by
  simp [enterFallback, leaveService_attempt]

theorem enterIsolated_attempt (s : State) : (enterIsolated s).con.attempt = .none := by
  simp [enterIsolated, leaveService_attempt]

theorem failAttempt_attempt (s : State) :
    (failAttempt s).con.attempt = s.con.attempt ∨ (failAttempt s).con.attempt = .none := by
  simp only [failAttempt]
  split
  · split
    · exact .inr (enterFallback_attempt _)
    · exact .inr (failSlot_attempt ..)
  · exact .inl rfl

theorem tripAfterClaim_attempt (withdrawn : Bool) (s : State) :
    (tripAfterClaim withdrawn s).con.attempt = s.con.attempt ∨
      (tripAfterClaim withdrawn s).con.attempt = .none := by
  simp only [tripAfterClaim]
  split
  · exact .inl rfl
  · split
    · simpa using endCancelled_attempt true _ _
    · split <;> simp

/-- A completed attempt is NONE (R113). -/
theorem completeRelease_attempt (r : Release) (s : State) : (completeRelease r s).con.attempt = .none := by
  simp only [completeRelease]
  split_ifs <;> simp

theorem completeClaim_attempt (c : Claim) (s : State) : (completeClaim c s).con.attempt = .none := by
  simp only [completeClaim]
  generalize hu : standingFromClaim c _ = u
  have ha : u.con.attempt = .none := by simp [← hu]
  have ht : (tripAfterClaim s.con.withdrawn u).con.attempt = .none := by
    simpa [ha] using tripAfterClaim_attempt s.con.withdrawn u
  simpa [ht] using changeRoster_attempt (offerStamp c.stamp (tripAfterClaim s.con.withdrawn u).roster)
    (tripAfterClaim s.con.withdrawn u)

theorem enterJoining_attempt (s : State) :
    (enterJoining s).con.attempt = s.con.attempt ∨ (enterJoining s).con.attempt = .none := by
  simp only [enterJoining, markPresence_attempt]
  refine (changeRoster_attempt _ _).imp_left fun h => h.trans ?_
  simp

theorem reformCap_attempt (s : State) :
    (reformCap s).con.attempt = s.con.attempt ∨ (reformCap s).con.attempt = .none := by
  simp only [reformCap]
  repeat' split
  all_goals grind [noticeAfter_attempt, shedTest_attempt]

theorem parkCar_attempt (s : State) :
    (parkCar s).con.attempt = s.con.attempt ∨ (parkCar s).con.attempt = .none := by
  simpa [parkCar] using postRelease_attempt _ s

theorem overtimeRun_attempt (t : Trip) (s : State) :
    (overtimeRun t s).con.attempt = s.con.attempt ∨ (overtimeRun t s).con.attempt = .none := by
  simp only [overtimeRun, enterAssess_keeps]
  refine (postRelease_attempt _ _).imp_left fun h => h.trans ?_
  simp

theorem cancelNow_attempt (t : Trip) (s : State) :
    (cancelNow t s).con.attempt = s.con.attempt ∨ (cancelNow t s).con.attempt = .none := by
  simpa [cancelNow] using withdrawClaim_attempt s

theorem cancelSending_attempt (t : Trip) (s : State) :
    (cancelSending t s).con.attempt = s.con.attempt ∨ (cancelSending t s).con.attempt = .none :=
  withdrawClaim_attempt _

theorem cancelCompleted_attempt (t : Trip) (s : State) :
    (cancelCompleted t s).con.attempt = s.con.attempt ∨ (cancelCompleted t s).con.attempt = .none := by
  simp only [cancelCompleted]
  refine (endCancelled_attempt true t _).imp_left fun h => h.trans ?_
  dsimp only
  split <;> simp

theorem endRun_attempt (t : Trip) (p : Position) (s : State) :
    (endRun t p s).con.attempt = s.con.attempt ∨ (endRun t p s).con.attempt = .none := by
  simp only [endRun]
  split <;> simpa using postRelease_attempt _ s

theorem endShedRun_attempt (t : Trip) (p : Position) (s : State) :
    (endShedRun t p s).con.attempt = s.con.attempt ∨ (endShedRun t p s).con.attempt = .none := by
  simp only [endShedRun]
  split <;> simpa using postShed_attempt t.id s

theorem takeTripEnd_attempt (t : Trip) (p : Position) (landing : Byte) (s : State) :
    (takeTripEnd t p landing s).con.attempt = s.con.attempt ∨
      (takeTripEnd t p landing s).con.attempt = .none := by
  have hstop : (stopAtEnd p landing s).con.attempt = s.con.attempt := by simp
  simp only [takeTripEnd]
  split
  · simp
  · simpa [hstop] using endShedRun_attempt t p (stopAtEnd p landing s)
  · simpa [hstop] using endRun_attempt t p (stopAtEnd p landing s)

end Sys2Proof.Machine
end

section
/-!
The canonical form of the roster (R18, R32) through every operation that writes it or chooses a CLAIM, through every
command, and from these O22.
-/

namespace Sys2Proof.Machine

/-! ### The roster alone -/

/-- The canonical form of a roster for this own station. -/
structure RosterForm (own : Nat) (r : Roster) : Prop where
  rising : risingStations r.records = true
  record : ∀ x ∈ r.records, RecordSound own r.mark x
  mark : stampValue r.mark
  closed : r.isOpen = false → r.records = []

theorem RosterSound.form {s : State} (h : RosterSound s) : RosterForm s.station s.roster :=
  ⟨h.rising, h.record, h.mark, h.closed⟩

theorem RosterForm.empty (own : Nat) (isOpen : Bool) : RosterForm own { isOpen := isOpen } :=
  ⟨rfl, by simp, by simp [stampValue], fun _ => rfl⟩

theorem RosterForm.sound {t : State} (h : RosterForm t.station t.roster)
    (ha : ∀ c, t.con.attempt = .waiting (.claim c) ∨ t.con.attempt = .sending (.claim c) → stampValue c.stamp) :
    RosterSound t :=
  ⟨h.rising, h.record, h.mark, h.closed, ha⟩

theorem floored_zero (mark : Nat) : floored mark 0 = 0 := by simp [floored]

/-- An offered stamp floors what it advances past, and keeps the form (R31, R32). -/
theorem RosterForm.offer {own stamp : Nat} {r : Roster} (h : RosterForm own r) (hv : stampValue stamp) :
    RosterForm own (offerStamp stamp r) := by
  rcases offerStamp_cases stamp r with he | ⟨hne, -, he⟩
  · rwa [he]
  · rw [he]
    refine ⟨?_, ?_, hv, fun hc => ?_⟩
    · simpa using (risingStations_map r.records (fun x => { x with stamp := floored stamp x.stamp }) fun _ => rfl).trans
        h.rising
    · intro y hy
      obtain ⟨x, hx, rfl⟩ := List.mem_map.mp hy
      have hr := h.record x hx
      exact ⟨hr.station, hr.other, floored_value _ _ hv hr.stamp, fun _ => hne, fun h0 => floored_near _ _ hv h0⟩
    · simp [h.closed hc]

/-- A record put into its place keeps the form (R18). -/
theorem RosterForm.put {own : Nat} {r : Roster} (h : RosterForm own r) {x : StationRecord}
    (hx : RecordSound own r.mark x) (ho : r.isOpen = true) :
    RosterForm own { r with records := putRecord r.records x } := by
  refine ⟨risingStations_putRecord _ _ h.rising, fun y hy => ?_, h.mark, fun hc => ?_⟩
  · rcases mem_putRecord hy with rfl | hy
    · exact hx
    · exact h.record y hy
  · exact absurd hc (by simp [ho])

/-- The record a message leaves has the stamp that the message offers to the mark (R23 to R25, R31). -/
theorem afterMessage_stamp (old : Option StationRecord) (m : Message) (now : Nat) :
    (afterMessage old m now).stamp = offeredStamp m.body := by
  unfold afterMessage
  rcases m.body with r | c | p
  · simp only [afterRelease, offeredStamp]
    split <;> rfl
  · rfl
  · rfl

/-- After an offer of a stamp other than 0 there is a mark (R31). -/
theorem offerStamp_mark_ne_zero {stamp : Nat} (h : stamp ≠ 0) (r : Roster) : (offerStamp stamp r).mark ≠ 0 := by
  simp only [offerStamp, h, if_false]
  split
  · exact h
  · tauto

@[simp] theorem offerStamp_isOpen (stamp : Nat) (r : Roster) : (offerStamp stamp r).isOpen = r.isOpen := by
  rcases offerStamp_cases stamp r with he | ⟨-, -, he⟩ <;> rw [he]

theorem findRecord_station {l : List StationRecord} {n : Nat} {x : StationRecord} (h : findRecord l n = some x) :
    x.station = n := by
  simpa using List.find?_some h

theorem findRecord_mem {l : List StationRecord} {n : Nat} {x : StationRecord} (h : findRecord l n = some x) :
    x ∈ l := List.mem_of_find?_eq_some h

/-- The record that a delivered message leaves in its sender's place, its stamp read through the floor (R23 to R25,
R32). -/
def deliveredRecord (m : Message) (now : Nat) (r : Roster) : StationRecord :=
  { afterMessage (findRecord r.records m.station) m now with
    stamp := floored (offerStamp (offeredStamp m.body) r).mark (offeredStamp m.body) }

theorem deliverToRoster_closed {r : Roster} (h : r.isOpen = false) (m : Message) (now : Nat) :
    deliverToRoster m now r = r := by
  simp [deliverToRoster, h]

theorem deliverToRoster_open {r : Roster} (h : r.isOpen = true) (m : Message) (now : Nat) :
    deliverToRoster m now r = { offerStamp (offeredStamp m.body) r with
      records := putRecord (offerStamp (offeredStamp m.body) r).records (deliveredRecord m now r) } := by
  simp [deliverToRoster, h, deliveredRecord, afterMessage_stamp]

theorem deliveredRecord_heard (m : Message) (now : Nat) (r : Roster) :
    (deliveredRecord m now r).station = m.station ∧ (deliveredRecord m now r).fresh = true ∧
      (deliveredRecord m now r).heard = now :=
  afterMessage_heard _ m now fun _ hx => findRecord_station hx

/-- A delivered message of another station keeps the form (R20 to R25, R31, R32). -/
theorem RosterForm.deliver {own : Nat} {r : Roster} (h : RosterForm own r) {m : Message} (now : Nat)
    (hs : 1 ≤ m.station ∧ m.station ≤ 62) (ho : m.station ≠ own) (hv : stampValue (offeredStamp m.body)) :
    RosterForm own (deliverToRoster m now r) := by
  cases hopen : r.isOpen
  · rwa [deliverToRoster_closed hopen]
  · obtain ⟨hstation, -, -⟩ := deliveredRecord_heard m now r
    have hmark := (h.offer hv).mark
    rw [deliverToRoster_open hopen]
    refine (h.offer hv).put ⟨by rwa [hstation], by rwa [hstation], floored_value _ _ hmark hv, fun hne => ?_,
      floored_near _ _ hmark⟩ (by simpa using hopen)
    exact offerStamp_mark_ne_zero (fun h0 => hne (by simp only [deliveredRecord, h0, floored_zero])) r

/-! ### Judged messages carry stamps of the ring (R88, R92) -/

theorem number16_le (hi lo : Byte) : number16 hi lo ≤ 65535 := by
  have := hi.isLt
  have := lo.isLt
  unfold number16
  omega

theorem readRelease_stamp {octets : List Byte} {b : Body} (h : readRelease octets = some b) :
    stampValue (offeredStamp b) := by
  unfold readRelease at h
  split at h
  · split at h
    · cases h
    · split at h
      · cases h
      · cases h
        simp only [offeredStamp]
        split
        · exact Nat.zero_le _
        · exact number16_le ..
  · cases h

theorem readClaim_stamp {cls : Nat} {octets : List Byte} {b : Body} (h : readClaim cls octets = some b) :
    stampValue (offeredStamp b) := by
  unfold readClaim at h
  split at h
  · split at h
    · cases h
    · cases h
      exact number16_le ..
  · cases h

theorem readPresence_stamp {octets : List Byte} {b : Body} (h : readPresence octets = some b) :
    stampValue (offeredStamp b) := by
  unfold readPresence at h
  split at h
  · split at h
    · cases h
    · split at h
      · cases h
      · cases h
        exact number16_le ..
  · cases h

/-- A message read has a station number and a stamp that the roster can hold. -/
theorem readMessage_bounds {octets : List Byte} {m : Message} (h : readMessage octets = some m) :
    (1 ≤ m.station ∧ m.station ≤ 62) ∧ stampValue (offeredStamp m.body) := by
  unfold readMessage at h
  split at h
  · dsimp only at h
    split at h
    · cases h
    split at h
    · cases h
    rename_i hstation
    obtain ⟨b, hb, rfl⟩ := Option.map_eq_some_iff.mp h
    refine ⟨by simp only; omega, ?_⟩
    split at hb
    · split at hb
      · exact readRelease_stamp hb
      · cases hb
    · split at hb
      · exact readClaim_stamp hb
      · cases hb
    · split at hb
      · exact readPresence_stamp hb
      · cases hb
    · cases hb
  · cases h

theorem judgeActivity_ok {u : LineUnit} {m : Message} (h : judgeActivity u = .ok m) :
    readMessage u.octets = some m := by
  unfold judgeActivity at h
  split_ifs at h
  split at h
  · cases h
  · cases h
    assumption

/-! ### Operations that write the roster or choose a CLAIM -/

@[simp] theorem changeRoster_roster (r : Roster) (s : State) : (changeRoster r s).roster = r := by
  rcases changeRoster_cases r s with ⟨-, he⟩ | ⟨-, he⟩ <;> rw [he]
  simp

/-- An attempt kept or ended carries no other CLAIM than before. -/
theorem RosterSound.claims {s t : State} (h : RosterSound s)
    (ha : t.con.attempt = s.con.attempt ∨ t.con.attempt = .none) :
    ∀ c, t.con.attempt = .waiting (.claim c) ∨ t.con.attempt = .sending (.claim c) → stampValue c.stamp := by
  intro c hc
  rcases ha with ha | ha
  · exact h.onItsWay c (by rwa [ha] at hc)
  · simp [ha] at hc

theorem RosterSound.changeRoster {s : State} (h : RosterSound s) {r : Roster} (hr : RosterForm s.station r) :
    RosterSound (changeRoster r s) :=
  RosterForm.sound (by simpa using hr) (h.claims (changeRoster_attempt r s))

/-- A roster cleared or opened anew has the form, whatever stood before (R19). -/
theorem RosterSound.fresh {s t : State} (h : RosterSound s) {isOpen : Bool} (hr : t.roster = { isOpen := isOpen })
    (ha : t.con.attempt = s.con.attempt ∨ t.con.attempt = .none) : RosterSound t :=
  RosterForm.sound (hr ▸ .empty _ _) (h.claims ha)

theorem enterJoining_roster (s : State) : (enterJoining s).roster = { isOpen := true } := by simp [enterJoining]

theorem RosterSound.enterJoining {s : State} (h : RosterSound s) : RosterSound (enterJoining s) :=
  h.fresh (enterJoining_roster s) (enterJoining_attempt s)

theorem RosterSound.enterAwaitSupply {s : State} (h : RosterSound s) (window : Nat) :
    RosterSound (enterAwaitSupply window s) := by
  unfold Machine.enterAwaitSupply
  dsimp only
  split
  · exact RosterSound.enterJoining (h.kept ⟨by simp, by simp, by simp⟩)
  · exact h.kept ⟨by simp, by simp, by simp⟩

theorem RosterSound.enterNoSupply {s : State} (h : RosterSound s) : RosterSound (enterNoSupply s) := by
  unfold Machine.enterNoSupply
  dsimp only
  split
  · exact RosterSound.enterJoining (h.kept ⟨by simp, by simp, by simp⟩)
  · exact h.kept ⟨by simp, by simp, by simp⟩

theorem RosterSound.settleReply {s : State} (h : RosterSound s) : RosterSound (settleReply s) :=
  h.kept ⟨by simp, by simp, by simp⟩

theorem RosterSound.onSupplyLoss {s : State} (h : RosterSound s) : RosterSound (onSupplyLoss s) := by
  unfold Machine.onSupplyLoss
  refine RosterSound.settleReply (RosterSound.enterAwaitSupply ?_ _)
  exact h.fresh (isOpen := false) rfl (.inr (leaveService_attempt s))

theorem RosterSound.supplyEdge {s : State} (h : RosterSound s) (before : SupplyMonitor) :
    RosterSound (supplyEdge before s) := by
  unfold Machine.supplyEdge
  split
  · unfold onSupplyGood
    split
    · exact h.enterJoining
    · exact h.enterJoining
    · exact h
  · split
    · exact h.onSupplyLoss
    · exact h

theorem RosterSound.becomeClass {s : State} (h : RosterSound s) (c : FreqClass) : RosterSound (becomeClass c s) := by
  unfold Machine.becomeClass
  refine RosterSound.supplyEdge (h.kept ⟨by simp, by simp, ?_⟩) _
  exact noticeAfter_attempt ..

theorem RosterSound.becomeAbsent {s : State} (h : RosterSound s) : RosterSound (becomeAbsent s) := by
  unfold Machine.becomeAbsent
  refine RosterSound.becomeClass (h.kept ?_) _
  exact ⟨rfl, rfl, .inl rfl⟩

theorem RosterSound.enterIsolated {s : State} (h : RosterSound s) : RosterSound (enterIsolated s) :=
  h.kept ⟨by simp, by simp, .inr (enterIsolated_attempt s)⟩

theorem RosterSound.onTakeover {s : State} (h : RosterSound s) : RosterSound (onTakeover s) := by
  unfold Machine.onTakeover
  split
  · exact h.kept ⟨rfl, rfl, .inl rfl⟩
  · dsimp only
    split
    · refine RosterSound.enterIsolated (h.kept ?_)
      exact ⟨rfl, rfl, .inl rfl⟩
    · refine RosterSound.enterAwaitSupply (h.kept ?_) _
      exact ⟨rfl, rfl, .inl rfl⟩
  · exact h

theorem RosterSound.endSession {s : State} (h : RosterSound s) : RosterSound (endSession s) :=
  h.fresh (isOpen := false) (by simp [Machine.endSession])
    (.inr (by simp [Machine.endSession, leaveService_attempt]))

theorem RosterSound.onRetransfer {s : State} (h : RosterSound s) : RosterSound (onRetransfer s) := by
  have hend : RosterSound (supplyAtSessionEnd s) := h.kept ⟨by simp, by simp, by simp⟩
  unfold Machine.onRetransfer
  dsimp only
  split
  · exact hend.kept ⟨rfl, rfl, .inl rfl⟩
  · exact hend
  · exact hend.endSession

/-! ### Messages and the choice -/

theorem RosterSound.completeClaim {s : State} (h : RosterSound s) {c : Claim} (hc : stampValue c.stamp) :
    RosterSound (completeClaim c s) := by
  refine RosterForm.sound ?_ (by simp [completeClaim_attempt])
  simpa [Machine.completeClaim] using h.form.offer hc

/-- The own message completes: the stamp of a CLAIM on its way is one of the ring (R31, R33, R90). -/
theorem RosterSound.completeOwn {s : State} (h : RosterSound s) {b : Body} (hb : s.con.attempt = .sending b) :
    RosterSound (completeOwn b s) := by
  unfold Machine.completeOwn
  dsimp only
  have ho : RosterSound (offerObservation (observationOf { station := s.station, body := b } true)
      { s with line := { s.line with transmitter := none } }) := h.kept ⟨by simp, by simp, by simp⟩
  generalize offerObservation _ _ = u at ho ⊢
  cases b with
  | release r =>
    exact ho.kept ⟨by simp, by simp, noteStart_attempt .. |>.elim
      (fun ha => .inr (ha.trans (completeRelease_attempt r u))) .inr⟩
  | claim c => exact (ho.completeClaim (h.onItsWay c (.inr hb))).kept ⟨by simp, by simp, noteStart_attempt ..⟩
  | presence p => exact ho.kept ⟨by simp, by simp, .inr rfl⟩

theorem takeDuplicate_attempt (s : State) :
    (takeDuplicate s).con.attempt = s.con.attempt ∨ (takeDuplicate s).con.attempt = .none := by
  unfold takeDuplicate
  dsimp only
  split
  · exact .inr (enterIsolated_attempt _)
  · simp

theorem RosterSound.deliverMessage {s : State} (h : RosterSound s) {m : Message} (hs : 1 ≤ m.station ∧ m.station ≤ 62)
    (hv : stampValue (offeredStamp m.body)) : RosterSound (deliverMessage m s) := by
  have hm : RosterSound (if m.station = s.station then takeDuplicate s
      else Machine.changeRoster (deliverToRoster m s.now s.roster) s) := by
    split
    · exact h.kept ⟨by simp, by simp, takeDuplicate_attempt s⟩
    · rename_i ho
      exact h.changeRoster (h.form.deliver _ hs ho hv)
  exact hm.kept ⟨by simp [Machine.deliverMessage], by simp [Machine.deliverMessage],
    by simpa [Machine.deliverMessage] using noteStart_attempt ..⟩

theorem RosterSound.judgeAndDeliver {s : State} (h : RosterSound s) (u : LineUnit) :
    RosterSound (judgeAndDeliver u s) := by
  unfold Machine.judgeAndDeliver
  split
  · exact h
  · split
    · exact h.kept ⟨by simp, by simp, by simp⟩
    · rename_i m hm
      obtain ⟨hs, hv⟩ := readMessage_bounds (judgeActivity_ok hm)
      exact h.deliverMessage hs hv

theorem RosterSound.failAttempt {s : State} (h : RosterSound s) : RosterSound (failAttempt s) :=
  h.kept ⟨by simp, by simp, failAttempt_attempt s⟩

theorem RosterSound.settleActivity {s : State} (h : RosterSound s) (u : LineUnit) :
    RosterSound (settleActivity u s) := by
  unfold Machine.settleActivity
  split
  · rename_i hb
    split
    · exact h.completeOwn hb
    · exact h.failAttempt.judgeAndDeliver u
  · exact h.judgeAndDeliver u

theorem nextStamp_value {mark : Nat} (h : stampValue mark) : stampValue (nextStamp mark) := by
  unfold stampValue nextStamp at *
  have hr : Config.stampRing = 65535 := rfl
  split_ifs <;> omega

/-- A chosen CLAIM takes the stamp next after the mark (R33). -/
theorem RosterSound.chooseSlot {s : State} (h : RosterSound s) (n : Nat)
    (offer : Option (Option SpeedStep × StepFigures)) : RosterSound (chooseSlot n offer s) := by
  rcases chooseSlot_cases n offer s with he | ⟨-, ⟨r, -, he⟩ | ⟨-, p, o, t, -, -, -, he⟩ | ⟨-, hd, he⟩⟩
  · rwa [he]
  · rw [he]
    exact RosterForm.sound h.form (by simp)
  · rw [he]
    refine RosterForm.sound h.form fun c hc => ?_
    obtain rfl : claimOf _ t o = c := by simpa [chooseClaim] using hc
    exact nextStamp_value h.mark
  · rw [he, choosePresence, if_pos hd]
    exact RosterForm.sound h.form (by simp)

theorem RosterSound.referencePoint {s : State} (h : RosterSound s) (n : Nat) : RosterSound (referencePoint n s) :=
  RosterSound.chooseSlot (h.kept ⟨by simp, by simp, by simp⟩) n _

theorem RosterSound.endActivity {s : State} (h : RosterSound s) (n : Nat) (u : LineUnit) :
    RosterSound (endActivity n u s) := by
  unfold Machine.endActivity
  refine RosterSound.referencePoint (RosterSound.settleActivity (h.kept ?_) u) n
  exact ⟨rfl, rfl, .inl rfl⟩

theorem RosterSound.openReceiver {s : State} (h : RosterSound s) (u : LineUnit) : RosterSound (openReceiver u s) :=
  h.kept ⟨rfl, rfl, .inl rfl⟩

theorem RosterSound.setLine {s : State} (h : RosterSound s) (u : LineUnit) : RosterSound (setLine u s) :=
  h.kept ⟨by simp, by simp, setLine_attempt u s⟩

end Sys2Proof.Machine
end

section
/-! The canonical form of the roster through the commands, by the file of the model that holds them, and O22. -/

namespace Sys2Proof.Machine

/-! ### The requests of the car link -/

theorem RosterSound.respond {s : State} (h : RosterSound s) (a : Answer) : RosterSound (respond a s) :=
  h.kept ⟨by simp, by simp, by simp⟩

theorem RosterSound.loseRequest {s : State} (h : RosterSound s) : RosterSound (loseRequest s) :=
  h.kept ⟨by simp, by simp, by simp⟩

theorem RosterSound.discardFrame {s : State} (h : RosterSound s) : RosterSound (discardFrame s) := by
  cases hr : linkReady s
  · rw [discardFrame_lost s hr]; exact h.loseRequest
  · rw [discardFrame_ready s hr]; exact h.kept ⟨rfl, rfl, .inl rfl⟩

theorem RosterSound.octetsArrive {s : State} (h : RosterSound s) : RosterSound (octetsArrive s) := by
  cases hr : linkReady s
  · rw [octetsArrive_lost s hr]; exact h.loseRequest
  · rw [octetsArrive_ready s hr]; exact h.kept ⟨rfl, rfl, .inl rfl⟩

/-- A request keeps the form when the judging of it does. -/
theorem RosterSound.takeRequest {s : State} (h : RosterSound s) {act : State → State × Answer}
    (hact : ∀ u, RosterSound u → RosterSound (act u).1) (code : Nat) (early : Bool) :
    RosterSound (takeRequest code early act s) := by
  have htaken : RosterSound (requestTaken s) := h.kept ⟨rfl, rfl, .inl rfl⟩
  cases hr : linkReady s
  · rw [takeRequest_lost code early act s hr]; exact h.loseRequest
  by_cases hc : configured s = true ∨ early = true
  · rw [takeRequest_taken code early act s hr hc]; exact (hact _ htaken).respond _
  · obtain ⟨hn, rfl⟩ : configured s = false ∧ early = false := by simpa using hc
    rw [takeRequest_early code act s hr hn]; exact htaken.respond _

theorem RosterSound.leaveUnconfigured {s : State} (h : RosterSound s) : RosterSound (leaveUnconfigured s) := by
  unfold Machine.leaveUnconfigured
  split
  · exact h.kept ⟨by simp, by simp, by simp⟩
  · refine RosterSound.enterAwaitSupply (h.kept ?_) _
    exact ⟨rfl, rfl, .inl rfl⟩

theorem RosterSound.judgeConfigure {s : State} (h : RosterSound s) (record : List Byte) :
    RosterSound (judgeConfigure record s).1 := by
  unfold Machine.judgeConfigure
  split
  · exact h
  · dsimp only
    split
    · exact h
    · refine RosterSound.leaveUnconfigured (h.kept ?_)
      exact ⟨rfl, rfl, .inl rfl⟩

theorem RosterSound.judgeReadObserved {s : State} (h : RosterSound s) : RosterSound (judgeReadObserved s).1 := by
  unfold Machine.judgeReadObserved
  split
  · exact h
  · exact h.kept ⟨rfl, rfl, .inl rfl⟩

theorem RosterSound.judgeReadStation {s : State} (h : RosterSound s) (station : Byte) :
    RosterSound (judgeReadStation station s).1 := by
  unfold Machine.judgeReadStation
  split_ifs <;> exact h

theorem RosterSound.judgeReport {s : State} (h : RosterSound s) (position landing occupancy reserved : Byte) :
    RosterSound (judgeReport position landing occupancy reserved s).1 := by
  unfold Machine.judgeReport
  split
  · exact h
  · exact h.kept ⟨by simp [acceptWithState], by simp [acceptWithState], by simp [acceptWithState]⟩
  · exact h

theorem RosterSound.restartState {s : State} (h : RosterSound s) : RosterSound (restartState s) := by
  have hv : RosterSound (restartValues s) := h.fresh (isOpen := false) rfl (.inr rfl)
  unfold Machine.restartState
  dsimp only
  split
  · exact hv.kept ⟨by simp, by simp, by simp⟩
  · refine RosterSound.enterAwaitSupply (hv.kept ?_) _
    exact ⟨rfl, rfl, .inl rfl⟩

theorem tripRecorded_kept (dir : Direction) (load : Byte) (s : State) : RosterKept s (tripRecorded dir load s) := by
  unfold tripRecorded
  split <;> exact ⟨by simp, by simp, by simp⟩

theorem RosterSound.judgeTripRequest {s : State} (h : RosterSound s) (direction load reserved : Byte) :
    RosterSound (judgeTripRequest direction load reserved s).1 := by
  have hl : RosterKept s (loadJudged load s) := by constructor <;> simp [loadJudged]
  have ha (dir : Direction) : RosterKept s (acceptTrip dir load (loadJudged load s)).1 := by
    refine (hl.trans (tripRecorded_kept dir load _)).trans ?_
    rw [acceptTrip_eq, startRecorded]
    split <;> exact ⟨by simp, by simp, by simp⟩
  cases hr : tripRequestRefusal s with
  | some a => rw [judgeTripRequest_refused hr]; exact h
  | none =>
    cases hd : directionOf direction with
    | none => rw [judgeTripRequest_direction hr hd]; exact h
    | some dir =>
      rw [judgeTripRequest_fields hr hd]
      split_ifs
      · exact h.kept hl
      · exact h.kept hl
      · exact h.kept (ha dir)

theorem RosterSound.cancelByRecord {s : State} (h : RosterSound s) (tripId : Byte) :
    RosterSound (cancelByRecord tripId s).1 := by
  unfold Machine.cancelByRecord
  split
  · exact h
  · split_ifs
    · exact h
    · exact h
    · exact h.kept ⟨by simp, by simp, cancelSending_attempt ..⟩
    · exact h.kept ⟨by simp [acceptWithState], by simp [acceptWithState], cancelNow_attempt ..⟩

theorem RosterSound.cancelInFallback {s : State} (h : RosterSound s) (tripId : Byte) :
    RosterSound (cancelInFallback tripId s).1 := by
  unfold Machine.cancelInFallback
  split
  · exact h
  · split_ifs
    · exact h
    · exact h.kept ⟨by simp [acceptWithState], by simp [acceptWithState], by simp [acceptWithState]⟩
    · exact h

theorem RosterSound.judgeTripCancel {s : State} (h : RosterSound s) (tripId : Byte) :
    RosterSound (judgeTripCancel tripId s).1 := by
  unfold Machine.judgeTripCancel
  split
  · exact h
  · exact h.cancelInFallback tripId
  · split
    · split_ifs
      · exact h.kept ⟨by simp, by simp, cancelCompleted_attempt ..⟩
      · exact h
      · exact h.cancelByRecord tripId
    · exact h.cancelByRecord tripId

theorem RosterSound.judgeTripEnd {s : State} (h : RosterSound s) (tripId position landing reserved : Byte) :
    RosterSound (judgeTripEnd tripId position landing reserved s).1 := by
  unfold Machine.judgeTripEnd
  split
  · exact h
  split
  · exact h
  split
  · exact h
  split
  · exact h
  split
  · exact h
  · exact h.kept ⟨by simp [acceptWithState], by simp [acceptWithState], takeTripEnd_attempt ..⟩

/-- A wake and the selection of service leave what the form reads. -/
theorem RosterSound.judgeServiceSelect {s : State} (h : RosterSound s) (value reserved : Byte) :
    RosterSound (judgeServiceSelect value reserved s).1 := by
  have hset (b : Bool) : RosterSound (setSelected b s) := h.kept ⟨by simp, by simp, by simp⟩
  have hwake : RosterSound (wakeCar (setSelected true s)) := h.kept ⟨by simp, by simp, by simp⟩
  unfold Machine.judgeServiceSelect
  split
  · exact h
  split
  · exact h
  split
  · exact h
  split
  · exact h
  split
  · exact hset false
  split
  · exact h
  split
  · split
    · exact h
    · exact hwake
  · exact hset true

theorem RosterSound.judgeCallEvent {s : State} (h : RosterSound s) (source reserved : Byte) :
    RosterSound (judgeCallEvent source reserved s).1 := by
  have hwake : RosterSound (wakeCar s) := h.kept ⟨by simp, by simp, by simp⟩
  unfold Machine.judgeCallEvent
  split
  · exact h
  split
  · exact h
  split
  · exact h.kept ⟨rfl, rfl, .inl rfl⟩
  split
  · split
    · exact h
    · exact hwake
  · exact h

/-! ### The commands -/

/-- The state that an outcome leaves, where it leaves one, has its roster in canonical form. -/
def NextSound (o : Host.Outcome State Fault Refusal) : Prop := ∀ t, o = .next t → RosterSound t

theorem RosterSound.next {t : State} (h : RosterSound t) : NextSound (.next t) := by
  rintro _ ⟨⟩
  exact h

theorem execColdReset_sound (pins : ResetPins) (s : State) : NextSound (execColdReset pins s) := by
  refine RosterSound.next ?_
  have hr (u : State) (hu : u.roster = {}) (hc : u.con = {}) : RosterSound u :=
    RosterForm.sound (hu ▸ .empty _ false) (by simp [hc])
  split
  · exact hr _ rfl rfl
  · exact hr _ rfl rfl

theorem execConfigure_sound {s : State} (h : RosterSound s) (record : List Byte) :
    NextSound (execConfigure record s) := by
  refine RosterSound.next ?_
  split
  · exact h.takeRequest (fun _ hu => hu.judgeConfigure record) ..
  · exact h.discardFrame

theorem execSense_sound {s : State} (h : RosterSound s) : NextSound (execSense s) := by
  refine RosterSound.next ?_
  split
  · refine (h.octetsArrive.kept ?_).respond _
    exact ⟨rfl, rfl, .inl rfl⟩
  · exact h.octetsArrive

theorem execRequestDiscarded_sound {s : State} (h : RosterSound s) (cause : DiscardCause) :
    NextSound (execRequestDiscarded cause s) := by
  refine RosterSound.next ?_
  split
  · exact h.octetsArrive.loseRequest
  · exact h.discardFrame

theorem RosterSound.linkQuiet {s : State} (h : RosterSound s) : RosterSound (linkQuiet s) := by
  rcases linkQuiet_cases s with ⟨-, he⟩ | ⟨since, -, he⟩ <;> rw [he]
  · exact h
  · exact h.kept ⟨rfl, rfl, .inl rfl⟩

theorem execDiscardQuietExpiry_sound {s : State} (h : RosterSound s) : NextSound (execDiscardQuietExpiry s) := by
  unfold execDiscardQuietExpiry
  split
  · exact h.linkQuiet.next
  · exact h.next

theorem execReplySent_sound {s : State} (h : RosterSound s) : NextSound (execReplySent s) := by
  unfold execReplySent
  split
  · exact RosterSound.next (h.kept ⟨rfl, rfl, .inl rfl⟩)
  · exact h.next

theorem execTrnDebounceExpiry_sound {s : State} (h : RosterSound s) : NextSound (execTrnDebounceExpiry s) := by
  unfold execTrnDebounceExpiry
  split
  · refine RosterSound.next ?_
    split
    · exact RosterSound.onTakeover (h.kept ⟨by simp, by simp, by simp⟩)
    · exact RosterSound.onRetransfer (h.kept ⟨by simp, by simp, by simp⟩)
    · exact h.kept ⟨by simp, by simp, by simp⟩
  · exact h.next

theorem execGokDebounceExpiry_sound {s : State} (h : RosterSound s) : NextSound (execGokDebounceExpiry s) := by
  unfold execGokDebounceExpiry
  split
  · exact RosterSound.next (RosterSound.supplyEdge (h.kept ⟨by simp, by simp, by simp⟩) _)
  · exact h.next

theorem RosterSound.reformCap {s : State} (h : RosterSound s) : RosterSound (reformCap s) :=
  h.kept ⟨by simp, by simp, reformCap_attempt s⟩

theorem execCapChange_sound {s : State} (h : RosterSound s) (code : Fin 8) : NextSound (execCapChange code s) :=
  RosterSound.next (h.kept ⟨rfl, rfl, .inl rfl⟩)

theorem execCapDebounceExpiry_sound {s : State} (h : RosterSound s) : NextSound (execCapDebounceExpiry s) := by
  unfold execCapDebounceExpiry
  split
  · exact RosterSound.next (RosterSound.reformCap (h.kept ⟨by simp, by simp, by simp⟩))
  · exact h.next

theorem RosterSound.passTo {s : State} (h : RosterSound s) (n : Nat) : RosterSound (passTo n s) :=
  h.kept ⟨rfl, rfl, .inl rfl⟩

theorem RosterSound.beginTrain {s : State} (h : RosterSound s) : RosterSound (beginTrain s) :=
  h.kept ⟨rfl, rfl, .inl rfl⟩

theorem execFsnPulse_sound {s : State} (h : RosterSound s) (period : Nat) : NextSound (execFsnPulse period s) := by
  unfold execFsnPulse
  split
  · exact h.next
  split
  · exact h.beginTrain.next
  split
  · exact ((h.passTo _).becomeAbsent.passTo _).beginTrain.next
  · exact ((h.passTo _).beginTrain.becomeClass _).next

theorem execAbsenceExpiry_sound {s : State} (h : RosterSound s) : NextSound (execAbsenceExpiry s) := by
  unfold execAbsenceExpiry
  split
  · exact RosterSound.next (RosterSound.becomeAbsent (h.kept ⟨by simp, by simp, by simp⟩))
  · exact h.next

theorem RosterSound.noticeAfter {s : State} (h : RosterSound s) (before : SupplyMonitor) :
    RosterSound (noticeAfter before s) :=
  h.kept ⟨by simp, by simp, noticeAfter_attempt before s⟩

theorem execInWindowHalfSecond_sound {s : State} (h : RosterSound s) : NextSound (execInWindowHalfSecond s) := by
  unfold execInWindowHalfSecond
  split
  · exact RosterSound.next (RosterSound.noticeAfter (h.kept ⟨by simp, by simp, by simp⟩) _)
  · exact h.next

theorem execUnderTimerExpiry_sound {s : State} (h : RosterSound s) : NextSound (execUnderTimerExpiry s) := by
  unfold execUnderTimerExpiry
  split
  · dsimp only
    split
    · exact RosterSound.next (h.kept ⟨by simp, by simp, by simp⟩)
    · exact RosterSound.next (RosterSound.reformCap (h.kept ⟨by simp, by simp, by simp⟩))
  · exact h.next

theorem execCapacityHoldExpiry_sound {s : State} (h : RosterSound s) : NextSound (execCapacityHoldExpiry s) := by
  unfold execCapacityHoldExpiry
  split
  · exact RosterSound.next (RosterSound.noticeAfter (h.kept ⟨by simp, by simp, by simp⟩) _)
  · exact h.next

theorem execSettleTimerExpiry_sound {s : State} (h : RosterSound s) : NextSound (execSettleTimerExpiry s) := by
  unfold execSettleTimerExpiry
  split
  · exact RosterSound.next (RosterSound.noticeAfter (h.kept ⟨by simp, by simp, by simp⟩) _)
  · exact h.next

theorem RosterSound.beginActivity {s : State} (h : RosterSound s) : RosterSound (beginActivity s) := h.setLine _

theorem execLineActivityStart_sound {s : State} (h : RosterSound s) : NextSound (execLineActivityStart s) := by
  unfold execLineActivityStart
  dsimp only
  split
  · exact RosterSound.next (h.kept ⟨rfl, rfl, .inl rfl⟩)
  split
  · refine RosterSound.next ?_
    split
    · exact (h.endActivity _ _).beginActivity
    · exact h.setLine _
  split
  · refine RosterSound.next ?_
    split
    · exact (h.openReceiver _).beginActivity
    · exact h.setLine _
  split
  · exact h.beginActivity.next
  · exact h.next

theorem RosterSound.lineError {s : State} (h : RosterSound s) (k : LineError) : RosterSound (lineError k s) :=
  h.kept ⟨by simp, by simp, by simp⟩

theorem execLongDominantExpiry_sound {s : State} (h : RosterSound s) : NextSound (execLongDominantExpiry s) := by
  unfold execLongDominantExpiry
  split
  · exact h.next
  dsimp only
  split
  · exact h.next
  split
  · exact RosterSound.next (RosterSound.lineError (RosterSound.passTo (RosterSound.setLine h _) _) _)
  · exact h.next

theorem RosterSound.tell {s : State} (h : RosterSound s) (changes : List LineChange) : RosterSound (tell changes s) :=
  h.kept ⟨rfl, rfl, .inl rfl⟩

theorem execEndOfActivity_sound {s : State} (h : RosterSound s) (changes : List LineChange) :
    NextSound (execEndOfActivity changes s) := by
  unfold execEndOfActivity
  split
  · split
    · exact (h.endActivity ..).next
    · exact (h.tell changes).next
  · exact (h.tell changes).next

theorem execRoundClose_sound {s : State} (h : RosterSound s) : NextSound (execRoundClose s) := by
  unfold execRoundClose
  split
  · refine RosterSound.next (RosterSound.referencePoint (h.kept ?_) _)
    exact ⟨by simp, by simp, by simp⟩
  · exact h.next

/-- The slot hands the waiting message over as it stands, a RELEASE as its slot now holds it (R105, R109). -/
theorem handedContent_claim {s : State} {b : Body} {c : Claim} (h : handedContent s b = .claim c) : b = .claim c := by
  cases b with
  | release r => cases h
  | claim d => exact h
  | presence p => cases h

theorem execSlotExpiry_sound {s : State} (h : RosterSound s) : NextSound (execSlotExpiry s) := by
  unfold execSlotExpiry
  split
  · rename_i b deadline hb hd
    dsimp only
    split
    · refine RosterSound.next (RosterSound.setLine ?_ _)
      refine RosterForm.sound h.form fun c hc => ?_
      refine h.onItsWay c (.inl ?_)
      rw [hb, ← handedContent_claim (s := Machine.passTo deadline s) (b := b) (c := c) (by simpa using hc)]
    · exact RosterSound.next (h.kept ⟨by simp, by simp, abandonAttempt_attempt _⟩)
  · exact h.next

theorem RosterSound.failAtBit {s : State} (h : RosterSound s) (x : Sending) (k : Nat) :
    RosterSound (failAtBit x k s) := by
  unfold Machine.failAtBit
  refine RosterSound.failAttempt (h.kept ?_)
  exact ⟨rfl, rfl, .inl rfl⟩

theorem execReadbackMismatch_sound {s : State} (h : RosterSound s) : NextSound (execReadbackMismatch s) := by
  unfold execReadbackMismatch
  split
  · exact h.next
  split
  · exact ((h.setLine _).failAtBit ..).next
  split
  · exact ((h.setLine _).failAtBit ..).next
  · exact h.next

theorem execAttemptJoined_sound {s : State} (h : RosterSound s) : NextSound (execAttemptJoined s) := by
  unfold execAttemptJoined
  split
  · exact h.next
  dsimp only
  split
  · exact ((h.setLine _).passTo _).failAttempt.next
  · exact h.next

theorem execPresenceDueExpiry_sound {s : State} (h : RosterSound s) : NextSound (execPresenceDueExpiry s) := by
  unfold execPresenceDueExpiry
  split
  · exact RosterSound.next (h.kept ⟨by simp, by simp, by simp⟩)
  · exact h.next

/-- A record that goes STALE keeps its place and its stamp (R22). -/
theorem execRecordStale_sound {s : State} (h : RosterSound s) (station : Nat) :
    NextSound (execRecordStale station s) := by
  unfold execRecordStale
  split
  · rename_i r hr
    have hmem := findRecord_mem hr
    have hopen : s.roster.isOpen = true := by
      cases ho : s.roster.isOpen
      · simp [h.closed ho] at hmem
      · rfl
    split
    · obtain ⟨hs, ho, hst, hk, hn⟩ := h.record r hmem
      refine RosterSound.next (RosterSound.changeRoster (h.passTo _) ?_)
      exact h.form.put (x := { r with fresh := false }) ⟨hs, ho, hst, hk, hn⟩ hopen
    · exact h.next
  · exact h.next

theorem execStartWindowExpiry_sound {s : State} (h : RosterSound s) : NextSound (execStartWindowExpiry s) := by
  unfold execStartWindowExpiry
  split
  · exact RosterSound.next (RosterSound.enterNoSupply (h.kept ⟨by simp, by simp, by simp⟩))
  · exact h.next

theorem execJoinTimerExpiry_sound {s : State} (h : RosterSound s) : NextSound (execJoinTimerExpiry s) := by
  unfold execJoinTimerExpiry
  split
  · exact RosterSound.next (h.kept ⟨by simp, by simp, by simp⟩)
  · exact h.next

theorem execOccupancyHoldExpiry_sound {s : State} (h : RosterSound s) : NextSound (execOccupancyHoldExpiry s) := by
  unfold execOccupancyHoldExpiry
  split
  · exact RosterSound.next (h.kept ⟨by simp, by simp, by simp⟩)
  · exact h.next

theorem execRunLimitExpiry_sound {s : State} (h : RosterSound s) : NextSound (execRunLimitExpiry s) := by
  unfold execRunLimitExpiry
  split
  · rename_i x hx
    split
    · have hp : RosterSound (passToExpiry s.seq.runTimer ((conf s).runLimit * Config.second) s) :=
        h.kept ⟨by simp, by simp, by simp⟩
      refine RosterSound.next ?_
      split
      · exact hp.kept ⟨by simp, by simp, by simp⟩
      · exact hp.kept ⟨by simp, by simp, overtimeRun_attempt ..⟩
    · exact h.next
  · exact h.next

theorem RosterSound.parkCar {s : State} (h : RosterSound s) : RosterSound (parkCar s) :=
  h.kept ⟨by simp, by simp, parkCar_attempt s⟩

theorem execLandingDwellExpiry_sound {s : State} (h : RosterSound s) : NextSound (execLandingDwellExpiry s) := by
  unfold execLandingDwellExpiry
  split
  · refine RosterSound.next ?_
    split
    · exact h.kept ⟨by simp, by simp, by simp⟩
    · exact RosterSound.parkCar (h.kept ⟨by simp, by simp, by simp⟩)
  · exact h.next

theorem execIdleTimerExpiry_sound {s : State} (h : RosterSound s) : NextSound (execIdleTimerExpiry s) := by
  unfold execIdleTimerExpiry
  split
  · exact RosterSound.next (RosterSound.parkCar (h.kept ⟨by simp, by simp, by simp⟩))
  · exact h.next

theorem execAgingExpiry_sound {s : State} (h : RosterSound s) : NextSound (execAgingExpiry s) := by
  unfold execAgingExpiry
  split
  · refine RosterSound.next ?_
    split
    · split
      · exact h.kept ⟨by simp, by simp, by simp⟩
      · exact h.kept ⟨by simp, by simp, by simp⟩
    · exact h.kept ⟨by simp, by simp, by simp⟩
  · exact h.next

theorem execPatienceExpiry_sound {s : State} (h : RosterSound s) : NextSound (execPatienceExpiry s) := by
  unfold execPatienceExpiry
  split
  · exact RosterSound.next (h.kept ⟨by simp, by simp, by simp⟩)
  · exact h.next

theorem execShedHoldExpiry_sound {s : State} (h : RosterSound s) : NextSound (execShedHoldExpiry s) := by
  unfold execShedHoldExpiry
  split
  · exact RosterSound.next (h.kept ⟨rfl, rfl, .inl rfl⟩)
  · exact h.next

theorem execFallbackTripStart_sound {s : State} (h : RosterSound s) : NextSound (execFallbackTripStart s) := by
  unfold execFallbackTripStart
  split
  · have hp : RosterKept s (if (firstHalfOpen s || firstHalfCloses s) = true then s
        else Machine.passTo (s.now + timeToOpening s) s) := by
      split
      · exact .refl s
      · exact ⟨rfl, rfl, .inl rfl⟩
    exact RosterSound.next ((h.kept hp).kept ⟨by simp, by simp, by simp⟩)
  · exact h.next

/-- The zero standing goes into the own roster fields only, whether or not the window was open (R161). -/
theorem RosterSound.zeroUnlessRunning {u : State} (h : RosterSound u) :
    RosterSound (if tripIn .running u = true then u else zeroStanding u) := by
  split
  · exact h
  · exact h.kept ⟨by simp, by simp, by simp⟩

theorem execOwnWindowClose_sound {s : State} (h : RosterSound s) : NextSound (execOwnWindowClose s) := by
  unfold execOwnWindowClose
  split
  · refine RosterSound.next (RosterSound.zeroUnlessRunning ?_)
    split
    · exact h.passTo _
    · exact h
  · exact h.next

theorem execFirstBaseGap_sound {s : State} (h : RosterSound s) : NextSound (execFirstBaseGap s) := by
  unfold execFirstBaseGap
  dsimp only
  split
  · exact (h.openReceiver _).next
  · exact h.next

/-- Every command keeps the canonical form of the roster. -/
theorem exec_sound (i : Instr) {s : State} (h : RosterSound s) : NextSound (exec i s) := by
  cases i with
  | coldReset pins => exact execColdReset_sound pins s
  | configure record => exact execConfigure_sound h record
  | query => exact (h.takeRequest (fun _ hu => hu.kept ⟨rfl, rfl, .inl rfl⟩) ..).next
  | sense => exact execSense_sound h
  | clearConditions => exact (h.takeRequest (fun _ hu => hu.kept ⟨rfl, rfl, .inl rfl⟩) ..).next
  | readObserved => exact (h.takeRequest (fun _ hu => hu.judgeReadObserved) ..).next
  | readStation station => exact (h.takeRequest (fun _ hu => hu.judgeReadStation station) ..).next
  | carReport position landing occupancy reserved =>
    exact (h.takeRequest (fun _ hu => hu.judgeReport position landing occupancy reserved) ..).next
  | restart => exact (h.takeRequest (fun _ hu => hu.restartState) ..).next
  | tripRequest direction load reserved =>
    exact (h.takeRequest (fun _ hu => hu.judgeTripRequest direction load reserved) ..).next
  | tripCancel tripId => exact (h.takeRequest (fun _ hu => hu.judgeTripCancel tripId) ..).next
  | tripEnd tripId position landing reserved =>
    exact (h.takeRequest (fun _ hu => hu.judgeTripEnd tripId position landing reserved) ..).next
  | serviceSelect value reserved =>
    exact (h.takeRequest (fun _ hu => hu.judgeServiceSelect value reserved) ..).next
  | callEvent source reserved => exact (h.takeRequest (fun _ hu => hu.judgeCallEvent source reserved) ..).next
  | unknownRequestCode code fields => exact (h.takeRequest (fun _ hu => hu) ..).next
  | requestDiscarded cause => exact execRequestDiscarded_sound h cause
  | requestGapExpiry => exact h.octetsArrive.linkQuiet.next
  | discardQuietExpiry => exact execDiscardQuietExpiry_sound h
  | replySent => exact execReplySent_sound h
  | trnChange reading => exact RosterSound.next (h.kept ⟨rfl, rfl, .inl rfl⟩)
  | trnDebounceExpiry => exact execTrnDebounceExpiry_sound h
  | gokChange reading => exact RosterSound.next (h.kept ⟨rfl, rfl, .inl rfl⟩)
  | gokDebounceExpiry => exact execGokDebounceExpiry_sound h
  | capChange code => exact execCapChange_sound h code
  | capDebounceExpiry => exact execCapDebounceExpiry_sound h
  | fsnPulse period => exact execFsnPulse_sound h period
  | absenceExpiry => exact execAbsenceExpiry_sound h
  | inWindowHalfSecond => exact execInWindowHalfSecond_sound h
  | underTimerExpiry => exact execUnderTimerExpiry_sound h
  | capacityHoldExpiry => exact execCapacityHoldExpiry_sound h
  | settleTimerExpiry => exact execSettleTimerExpiry_sound h
  | lineActivityStart => exact execLineActivityStart_sound h
  | longDominantExpiry => exact execLongDominantExpiry_sound h
  | endOfActivity changes => exact execEndOfActivity_sound h changes
  | roundClose => exact execRoundClose_sound h
  | slotExpiry => exact execSlotExpiry_sound h
  | readbackMismatch => exact execReadbackMismatch_sound h
  | attemptJoined => exact execAttemptJoined_sound h
  | presenceDueExpiry => exact execPresenceDueExpiry_sound h
  | recordStale station => exact execRecordStale_sound h station
  | startWindowExpiry => exact execStartWindowExpiry_sound h
  | joinTimerExpiry => exact execJoinTimerExpiry_sound h
  | occupancyHoldExpiry => exact execOccupancyHoldExpiry_sound h
  | runLimitExpiry => exact execRunLimitExpiry_sound h
  | landingDwellExpiry => exact execLandingDwellExpiry_sound h
  | idleTimerExpiry => exact execIdleTimerExpiry_sound h
  | agingExpiry => exact execAgingExpiry_sound h
  | patienceExpiry => exact execPatienceExpiry_sound h
  | shedHoldExpiry => exact execShedHoldExpiry_sound h
  | fallbackTripStart => exact execFallbackTripStart_sound h
  | ownWindowClose => exact execOwnWindowClose_sound h
  | firstBaseGap => exact execFirstBaseGap_sound h

/-- Settles O22: an empty queue lets time pass, a command keeps the form by its own lemma. -/
theorem rosterSoundKept : Obligations.RosterSoundKept := by
  intro s t h hstep
  unfold step at hstep
  split at hstep
  · exact RosterSound.next (h.kept ⟨by simp, by simp, by simp⟩) t hstep
  · refine exec_sound _ (h.kept ?_) t hstep
    exact ⟨rfl, rfl, .inl rfl⟩

end Sys2Proof.Machine
end

section
/-! The ring of stamps (R30) and the stamp of a claim (R33): O9 and O10. -/

namespace Sys2Proof.Machine

/-- The ring difference with the ring's size written out (R30). -/
theorem ringDiff_ring (a b : Nat) : ringDiff a b = if b ≤ a then a - b else a + 65535 - b := rfl

theorem newerThan_iff (a b : Nat) : newerThan a b = true ↔ 1 ≤ ringDiff a b ∧ ringDiff a b ≤ 32767 := by
  simp [newerThan]

theorem ringDiff_le {a b : Nat} (ha : 1 ≤ a ∧ a ≤ 65535) (hb : 1 ≤ b ∧ b ≤ 65535) : ringDiff a b ≤ 65534 := by
  rw [ringDiff_ring]
  split <;> omega

/-- Two different stamps stand at ring differences that add up to the ring, so exactly one is the newer (R30). -/
theorem ringDiff_add_ringDiff {a b : Nat} (ha : 1 ≤ a ∧ a ≤ 65535) (hb : 1 ≤ b ∧ b ≤ 65535) (hab : a ≠ b) :
    ringDiff a b + ringDiff b a = 65535 := by
  rw [ringDiff_ring a, ringDiff_ring b]
  rcases lt_or_gt_of_ne hab with hlt | hlt
  · rw [if_neg (by omega), if_pos hlt.le]; omega
  · rw [if_pos hlt.le, if_neg (by omega)]; omega

theorem newerThan_antisymm {a b : Nat} (ha : 1 ≤ a ∧ a ≤ 65535) (hb : 1 ≤ b ∧ b ≤ 65535) (hab : a ≠ b) :
    newerThan a b = true ↔ newerThan b a = false := by
  have hsum := ringDiff_add_ringDiff ha hb hab
  have hlt : ringDiff a b ≤ 65534 := ringDiff_le ha hb
  have hlt' : ringDiff b a ≤ 65534 := ringDiff_le hb ha
  rw [newerThan_iff, ← Bool.not_eq_true, newerThan_iff]
  omega

theorem nextStamp_ring {mark : Nat} (h : 1 ≤ mark) : nextStamp mark = if mark = 65535 then 1 else mark + 1 := by
  rw [nextStamp, if_neg (by omega)]
  rfl

/-- Two entries that draw the same stamp stand by their station numbers, higher first (R34). -/
theorem entryBefore_sameStamp {mark : Nat} {x y : Entry} (h : x.stamp = y.stamp) :
    entryBefore mark x y = true ↔ y.station < x.station := by
  by_cases hy : y.stamp = 0 <;> simp [entryBefore, h, hy]

/-- A stamped entry stands before one without a stamp (R34). -/
theorem entryBefore_unstamped {mark : Nat} {x y : Entry} (hx : x.stamp ≠ 0) (hy : y.stamp = 0) :
    entryBefore mark x y = true ∧ entryBefore mark y x = false := by
  simp [entryBefore, hx, hy]

/-- Settles O9. Three stamps a third of the ring apart are each newer than the next. -/
theorem stampRing : Obligations.StampRing := by
  refine ⟨fun a b ha ha' hb hb' => ⟨?_, ringDiff_le ⟨ha, ha'⟩ ⟨hb, hb'⟩,
      newerThan_iff a b, newerThan_antisymm ⟨ha, ha'⟩ ⟨hb, hb'⟩, nextStamp_ring ha⟩,
    ⟨43690, 21845, 65535, by decide, by decide, by decide⟩,
    fun mark x y _ => ⟨entryBefore_sameStamp, entryBefore_unstamped⟩⟩
  rw [ringDiff_ring]
  split <;> omega

/-- The stamp next after a mark stands one step further from every stamp than the mark does (R30). -/
theorem ringDiff_nextStamp {mark stamp : Nat} (hm : 1 ≤ mark) (hm' : mark ≤ 65535) (hs : 1 ≤ stamp)
    (hs' : stamp ≤ 65535) (hnear : ringDiff mark stamp ≤ 32766) :
    ringDiff (nextStamp mark) stamp = ringDiff mark stamp + 1 := by
  rw [nextStamp_ring hm]
  rw [ringDiff_ring mark] at hnear ⊢
  rw [ringDiff_ring]
  split_ifs at hnear ⊢ <;> omega

/-- A newer stamp is taken as the mark (R31). -/
theorem offerStamp_newer {stamp : Nat} {r : Roster} (hs : stamp ≠ 0) (hn : newerThan stamp r.mark = true) :
    (offerStamp stamp r).mark = stamp := by
  simp [offerStamp, hs, hn]

/-- Settles O10: no stamp of the roster lies more than 32766 behind the mark, and the claim's stamp is one before it. -/
theorem claimStampIsNewest : Obligations.ClaimStampIsNewest := by
  intro s r hsound hr hstamp
  have hrec := hsound.record r hr
  have hm : 1 ≤ s.roster.mark := Nat.one_le_iff_ne_zero.mpr (hrec.known hstamp)
  have hm' : s.roster.mark ≤ 65535 := hsound.mark
  have hnear : ringDiff s.roster.mark r.stamp ≤ 32766 := hrec.near hstamp
  have hnext := ringDiff_nextStamp hm hm' (Nat.one_le_iff_ne_zero.mpr hstamp) hrec.stamp hnear
  have hself := ringDiff_nextStamp hm hm' hm hm' (by simp [ringDiff_self])
  rw [ringDiff_self] at hself
  refine ⟨(newerThan_iff ..).mpr (by omega), offerStamp_newer ?_ ((newerThan_iff ..).mpr (by omega))⟩
  rw [nextStamp_ring hm]
  split <;> omega

end Sys2Proof.Machine
end

section
/-!
The resets: the line as either reset leaves it (R98, R79), the two resets field by field (R131, R132), and the laws the reset
state meets; O23, O26 and O31.
-/

namespace Sys2Proof.Machine

/-! ### The line at a reset (R79, R98) -/

/-- Of changes that have all come, the last gives the level that the others leave on the line. -/
theorem foldl_level_come {p : LineChange → Prop} [DecidablePred p] (l : List LineChange) (start : Level)
    (h : ∀ c ∈ l, p c) :
    l.foldl (fun level c => if p c then c.level else level) start = (l.getLast?.map LineChange.level).getD start := by
  induction l using List.reverseRecOn with
  | nil => rfl
  | append_singleton l c _ => simp [h c (by simp)]

/-- Changes still to come leave the level as it is. -/
theorem foldl_level_coming {p : LineChange → Prop} [DecidablePred p] (l : List LineChange) (start : Level)
    (h : ∀ c ∈ l, ¬p c) : l.foldl (fun level c => if p c then c.level else level) start = start := by
  induction l with
  | nil => rfl
  | cons c l ih =>
    rw [List.foldl_cons, if_neg (h c (by simp))]
    exact ih fun d hd => h d (by simp [hd])

/-- A reset splits what is told of the line: what has come gives the level, the rest is counted from here. -/
theorem LineUnit.reset_told {u : LineUnit} {told : List LineChange}
    (h : (if (u.active || u.awaitingGap) = true then u.coming else []) = told) (now : Nat) :
    (u.reset now).others =
        told.foldl (fun level c => if u.startedAt + c.after ≤ now then c.level else level) u.others ∧
      (u.reset now).coming = (told.filter fun c => decide (now < u.startedAt + c.after)).map
        fun c => { c with after := u.startedAt + c.after - now } := by
  subst h
  exact ⟨rfl, rfl⟩

/-- On a quiet line nothing that is told counts; else the changes that have come are taken off (R98). -/
theorem LineUnit.reset_anew (u : LineUnit) (now : Nat) : LineAnew u (u.reset now) now := by
  refine ⟨rfl, fun hq => ?_, fun ha before after hsplit hcome hcoming => ?_⟩
  · have htold : (if (u.active || u.awaitingGap) = true then u.coming else []) = [] := by
      rcases hq with ⟨h1, h2⟩ | hc
      · simp [h1, h2]
      · simp [hc]
    exact reset_told htold now
  · have htold : (if (u.active || u.awaitingGap) = true then u.coming else []) = before ++ after := by
      rw [← hsplit, if_pos (by simpa using ha)]
    have hbefore : before.filter (fun c => decide (now < u.startedAt + c.after)) = [] :=
      List.filter_eq_nil_iff.mpr fun c hc => by have := hcome c hc; simpa using this
    have hafter : after.filter (fun c => decide (now < u.startedAt + c.after)) = after :=
      List.filter_eq_self.mpr fun c hc => by have := hcoming c hc; simpa using this
    obtain ⟨hothers, hrest⟩ := reset_told htold now
    rw [hothers, hrest, List.foldl_append, foldl_level_coming after _ fun c hc => not_le.mpr (hcoming c hc),
      List.filter_append, hbefore, hafter]
    exact ⟨foldl_level_come before _ hcome, rfl⟩

/-! ### A cold reset (R132) -/

theorem coldSequencer_lines (trn : TrnReading) :
    coldSequencer trn = { runp := trn == .normal, spd := if trn = .normal then .p100 else .p25 } := by
  cases trn <;> rfl

/-- A cold reset with RESET held: RUNP is negated whatever TRN reads (R136). -/
theorem execColdReset_asserted (straps : BitVec 6) (s : State) :
    execColdReset ⟨straps, .asserted⟩ s =
      .next { coldResetState straps { s with pins := { s.pins with reset := .asserted } } with
        seq := { runp := false, spd := .p25 } } := by
  cases h : s.pins.trn <;> simp [execColdReset, stopRun, coldResetState, coldSequencer, h]

/-- A cold reset with RESET released: RUNP and SPD go by TRN (log 21). -/
theorem execColdReset_released (straps : BitVec 6) (s : State) :
    execColdReset ⟨straps, .released⟩ s =
      .next { coldResetState straps { s with pins := { s.pins with reset := .released } } with
        seq := { runp := s.pins.trn == .normal, spd := if s.pins.trn = .normal then .p100 else .p25 } } := by
  rw [← coldSequencer_lines]
  rfl

/-- Settles O26. -/
theorem coldResetResult : Obligations.ColdResetResult := by
  refine ⟨rfl, fun straps reset s => ?_⟩
  cases reset with
  | asserted =>
    refine ⟨_, execColdReset_asserted straps s, rfl, rfl, rfl, ?_, rfl, rfl, rfl, s.line.reset_anew s.now, rfl, rfl⟩
    simp
  | released =>
    refine ⟨_, execColdReset_released straps s, rfl, rfl, rfl, ?_, rfl, rfl, rfl, s.line.reset_anew s.now, rfl, rfl⟩
    simp

/-! ### RESTART (R131, R181) -/

/-- After a reset no supply is good, so a session that begins waits for the plant (R77, R122). -/
theorem restartState_emergency {s : State} (h : s.pins.trn = .emergency) :
    restartState s = awaiting 60000000 (sessionBegun (restartValues s)) := by
  have hs : (sessionBegun (restartValues s)).seq.state ≠ .awaitSupply := fun h => by cases h
  have hg : (sessionBegun (restartValues s)).supply.good = false := Bool.and_false _
  have ht : (restartValues s).supply.trn = .emergency := h
  have he := enterAwaitSupply_eq hs 60000000
  rw [hg] at he
  simp only [restartState, ht]
  exact he

theorem restartState_normal {s : State} (h : s.pins.trn = .normal) :
    restartState s = { restartValues s with
      seq := { state := .dormant }, link := { (restartValues s).link with attention := true } } := by
  have ht : (restartValues s).supply.trn = .normal := h
  simp only [restartState, ht]
  rfl

/-- Settles O31, by the reading of TRN. -/
theorem restartResult : Obligations.RestartResult := by
  intro s ht
  refine ⟨_, congrArg Host.Outcome.next (takeRequest_taking ht 8 false judgeRestart), ?_⟩
  cases hp : s.pins.trn with
  | normal =>
    have hr := restartState_normal (s := requestTaken s) hp
    simp only [judgeRestart, hr]
    refine ⟨rfl, rfl, rfl, rfl, rfl, rfl, rfl, rfl, ⟨rfl, rfl⟩, rfl, ⟨rfl, rfl⟩, rfl, rfl, ?_, rfl,
      s.line.reset_anew s.now, rfl⟩
    rw [← hp]
    rfl
  | emergency =>
    have hr := restartState_emergency (s := requestTaken s) hp
    simp only [judgeRestart, hr]
    refine ⟨rfl, rfl, rfl, rfl, rfl, rfl, rfl, rfl, ⟨rfl, rfl⟩, rfl, ⟨rfl, rfl⟩, rfl, rfl, ?_, rfl,
      s.line.reset_anew s.now, rfl⟩
    rw [← hp]
    rfl

/-! ### The laws at reset -/

/-- The reset state is UNCONFIGURED, with TRN reading normal and RESET released (log 4). -/
theorem reset_sound : Sound State.reset where
  silent _ := ⟨rfl, rfl, rfl, rfl, rfl⟩
  noTrip _ := rfl
  dormant h := by cases h
  held h := by cases h
  unconfigured _ _ := ⟨rfl, rfl⟩
  permit h := by cases h
  running h := by rcases h with h | h | h <;> cases h
  speed h := by cases h
  pace h := by cases h
  unadmitted _ h := by cases h
  emergency := rfl
  shed := rfl
  roster _ := rfl
  standing _ _ := ⟨rfl, rfl, rfl⟩

/-- Settles O23. -/
theorem resetMeetsTheLaws : Obligations.ResetMeetsTheLaws := by
  refine ⟨reset_sound, fun h => ?_, fun h => ?_, Nat.zero_le _, RosterForm.sound (.empty _ false) fun c h => ?_⟩
  · cases h
  · cases h
  · rcases h with h | h <;> cases h

end Sys2Proof.Machine
end

section
/-!
READ-STATION: the restoration order as a sorted list (R34), the place of a station in it (R35), the largest demand (R27), the
octets of a standing (R180), and from these O15.
-/

namespace Sys2Proof.Machine

/-! ### The restoration order (R34) -/

theorem entryBefore_iff (mark : Nat) (a b : Entry) : entryBefore mark a b = true ↔ Ahead mark a b := by
  by_cases ha : a.stamp = 0 <;> by_cases hb : b.stamp = 0
  · simp [entryBefore, Ahead, ha, hb]
  · simp [entryBefore, Ahead, ha, hb]
  · simp [entryBefore, Ahead, ha, hb]
  · by_cases hd : ringDiff mark a.stamp = ringDiff mark b.stamp <;> simp [entryBefore, Ahead, ha, hb, hd]

theorem Ahead.trans {mark : Nat} {a b c : Entry} (hab : Ahead mark a b) (hbc : Ahead mark b c) : Ahead mark a c := by
  unfold Ahead at *
  omega

/-- Of two entries of different stations one stands ahead of the other. -/
theorem Ahead.of_not {mark : Nat} {a b : Entry} (hs : a.station ≠ b.station) (h : ¬Ahead mark a b) : Ahead mark b a := by
  unfold Ahead at *
  omega

theorem insertEntry_perm (mark : Nat) (e : Entry) (l : List Entry) : (insertEntry mark e l).Perm (e :: l) := by
  induction l with
  | nil => exact .refl _
  | cons x rest ih =>
    rw [insertEntry]
    split
    · exact .refl _
    · exact (ih.cons x).trans (.swap e x rest)

theorem insertEntry_sorted {mark : Nat} {e : Entry} {l : List Entry} (hl : l.Pairwise (Ahead mark))
    (hs : ∀ x ∈ l, e.station ≠ x.station) : (insertEntry mark e l).Pairwise (Ahead mark) := by
  induction l with
  | nil => simp [insertEntry]
  | cons x rest ih =>
    obtain ⟨hx, hrest⟩ := List.pairwise_cons.mp hl
    rw [insertEntry]
    split
    · rename_i hb
      have hex := (entryBefore_iff ..).mp hb
      refine List.pairwise_cons.mpr ⟨fun y hy => ?_, hl⟩
      rcases List.mem_cons.mp hy with rfl | hy
      · exact hex
      · exact hex.trans (hx y hy)
    · rename_i hb
      have hxe : Ahead mark x e := .of_not (hs x (by simp)) fun h => hb ((entryBefore_iff ..).mpr h)
      refine List.pairwise_cons.mpr ⟨fun y hy => ?_, ih hrest fun y hy => hs y (by simp [hy])⟩
      rcases List.mem_cons.mp ((insertEntry_perm mark e rest).mem_iff.mp hy) with rfl | hy
      · exact hxe
      · exact hx y hy

theorem foldr_insertEntry_perm (mark : Nat) (l : List Entry) : (l.foldr (insertEntry mark) []).Perm l := by
  induction l with
  | nil => exact .refl _
  | cons e rest ih => exact (insertEntry_perm ..).trans (ih.cons e)

/-- Entries of different stations are sorted by inserting one after another. -/
theorem foldr_insertEntry_sorted {mark : Nat} {l : List Entry} (hl : (l.map Entry.station).Nodup) :
    (l.foldr (insertEntry mark) []).Pairwise (Ahead mark) := by
  induction l with
  | nil => exact .nil
  | cons e rest ih =>
    obtain ⟨he, hrest⟩ := List.nodup_cons.mp hl
    refine insertEntry_sorted (ih hrest) fun x hx hs => he ?_
    rw [hs]
    exact List.mem_map_of_mem ((foldr_insertEntry_perm mark rest).mem_iff.mp hx)

/-- Records in rising order are of different stations. -/
theorem risingStations_nodup {l : List StationRecord} (h : risingStations l = true) :
    (l.map StationRecord.station).Nodup := by
  have hchain : (l.map StationRecord.station).IsChain (· < ·) := by
    induction l with
    | nil => exact .nil
    | cons a rest ih =>
      cases rest with
      | nil => exact .singleton _
      | cons b rest =>
        obtain ⟨hab, hrest⟩ : a.station < b.station ∧ risingStations (b :: rest) = true := by
          simpa [risingStations] using h
        exact .cons_cons hab (ih hrest)
  exact (List.isChain_iff_pairwise.mp hchain).imp fun hab => hab.ne

/-- The own entry and those of the records that draw are of different stations (R18, R34). -/
theorem entries_nodup {s : State} (h : RosterSound s) :
    ((ownEntry s :: (s.roster.records.filter fun r => decide (0 < r.committed)).map recordEntry).map
      Entry.station).Nodup := by
  rw [List.map_cons, List.map_map, List.nodup_cons]
  constructor
  · intro hm
    obtain ⟨r, hr, hs⟩ := List.mem_map.mp hm
    exact (h.record r (List.mem_of_mem_filter hr)).other hs
  · exact (risingStations_nodup h.rising).sublist (List.filter_sublist.map _)

theorem restorationOrder_sorted {s : State} (h : RosterSound s) : IsRestorationOrder s (restorationOrder s) :=
  ⟨foldr_insertEntry_perm .., foldr_insertEntry_sorted (entries_nodup h)⟩

/-- The position of a station is its place, from 1, or 0 (R35). -/
theorem orderPosition_placeIn (station : Nat) (order : List Entry) :
    PlaceIn order station (orderPosition station order) := by
  induction order with
  | nil => exact .inl ⟨rfl, by simp⟩
  | cons e rest ih =>
    by_cases he : e.station = station
    · exact .inr ⟨[], e, rest, rfl, he, by simp [orderPosition, he]⟩
    rcases ih with ⟨h0, hne⟩ | ⟨before, x, after, hsplit, hx, hp⟩
    · refine .inl ⟨by simp [orderPosition, he, h0], fun x hx => ?_⟩
      rcases List.mem_cons.mp hx with rfl | hx
      · exact he
      · exact hne x hx
    · exact .inr ⟨e :: before, x, after, by rw [hsplit]; rfl, hx, by simp [orderPosition, he, hp]⟩

/-! ### The largest demand (R27) -/

theorem largestDemand_append_none {l : List StationRecord} {x : StationRecord} (hx : x.demand = none) (o : Bool)
    (m : Nat) : (Roster.mk o (l ++ [x]) m).largestDemand = (Roster.mk o l m).largestDemand := by
  simp only [Roster.largestDemand, List.foldl_append, List.foldl_cons, List.foldl_nil, hx]

theorem largestDemand_append_some {l : List StationRecord} {x : StationRecord} {e : Int} (hx : x.demand = some e)
    (o : Bool) (m : Nat) :
    (Roster.mk o (l ++ [x]) m).largestDemand = some ((Roster.mk o l m).largestDemand.elim e (max e)) := by
  simp only [Roster.largestDemand, List.foldl_append, List.foldl_cons, List.foldl_nil, hx]
  generalize List.foldl _ none l = d
  cases d with
  | none => rfl
  | some d => exact congrArg some (max_comm d e)

theorem LargestDemand.append_none {l : List StationRecord} {x : StationRecord} {d : Option Int}
    (h : LargestDemand l d) (hx : x.demand = none) : LargestDemand (l ++ [x]) d := by
  obtain ⟨hnone, hsome⟩ := h
  refine ⟨by simp [hnone, or_imp, forall_and, hx], fun e he => ?_⟩
  obtain ⟨⟨r, hr, hre⟩, hmax⟩ := hsome e he
  refine ⟨⟨r, by simp [hr], hre⟩, fun y hy z hz => ?_⟩
  rcases List.mem_append.mp hy with hy | hy
  · exact hmax y hy z hz
  · rw [List.mem_singleton.mp hy, hx] at hz
    cases hz

/-- One more record with a demand: the larger of it and the largest so far. -/
theorem LargestDemand.append_some {l : List StationRecord} {x : StationRecord} {d : Option Int} {e : Int}
    (h : LargestDemand l d) (hx : x.demand = some e) :
    LargestDemand (l ++ [x]) (some (d.elim e (max e))) := by
  obtain ⟨hnone, hsome⟩ := h
  refine ⟨by simp [hx], fun f hf => ?_⟩
  obtain rfl := Option.some.inj hf
  cases d with
  | none =>
    refine ⟨⟨x, by simp, hx⟩, fun y hy z hz => ?_⟩
    rcases List.mem_append.mp hy with hy | hy
    · rw [hnone.mp rfl y hy] at hz
      cases hz
    · rw [List.mem_singleton.mp hy, hx] at hz
      exact (Option.some.inj hz).ge
  | some g =>
    obtain ⟨⟨r, hr, hrg⟩, hmax⟩ := hsome g rfl
    refine ⟨?_, fun y hy z hz => ?_⟩
    · rcases max_choice e g with hm | hm
      · exact ⟨x, by simp, by simp [hx, hm]⟩
      · exact ⟨r, by simp [hr], by simp [hrg, hm]⟩
    · rcases List.mem_append.mp hy with hy | hy
      · exact (hmax y hy z hz).trans (le_max_right e g)
      · rw [List.mem_singleton.mp hy, hx] at hz
        exact (Option.some.inj hz).ge.trans (le_max_left e g)

theorem largestDemand_largest (r : Roster) : LargestDemand r.records r.largestDemand := by
  obtain ⟨o, l, m⟩ := r
  induction l using List.reverseRecOn with
  | nil => exact ⟨by simp [Roster.largestDemand], by simp [Roster.largestDemand]⟩
  | append_singleton l x ih =>
    cases hx : x.demand with
    | none =>
      rw [largestDemand_append_none hx]
      exact ih.append_none hx
    | some e =>
      rw [largestDemand_append_some hx]
      exact ih.append_some hx

/-! ### The octets of a standing (R180) -/

theorem standingFlags_sum (selected lockout shedPending : Bool) (demand : Option Int) :
    standingFlags selected lockout shedPending demand =
      octet (flag selected + 2 * flag lockout + 4 * flag shedPending + 8 * flag demand.isSome) ::
        signed16 (demand.getD 0) := by
  cases selected <;> cases lockout <;> cases shedPending <;> cases demand <;> rfl

/-- A part of 10 ms is dropped or counts as a whole one (log 8). -/
theorem inUnits_age (f : Config.TimeField) (time : Nat) :
    inUnits f (10 * Config.millisecond) time = time / 10000 ∨
      inUnits f (10 * Config.millisecond) time = (time + 9999) / 10000 := by
  have hu : 10 * Config.millisecond = 10000 := rfl
  rw [inUnits, hu]
  split <;> omega

theorem ownStanding_octets (s : State) : ownStanding s =
    [3] ++ signed16 s.seq.commitment ++ [octet s.seq.claimClass] ++ word16 s.seq.stamp ++
      [octet (orderPosition s.station (restorationOrder s))] ++ word16 (conf s).dmax ++ word16 (conf s).gmax ++
      [octet s.seq.state.code,
        octet (flag s.seq.serviceSelected + 2 * flag s.seq.lockout + 4 * flag (s.seq.state == .shedPending) +
          8 * flag s.adm.ownDemand.isSome)] ++ signed16 (s.adm.ownDemand.getD 0) ++ [0, 0] := by
  simp only [ownStanding, standingFlags_sum, List.append_assoc]
  rfl

theorem recordStanding_octets (s : State) (r : StationRecord) :
    ∃ age, (age = (s.now - r.heard) / 10000 ∨ age = (s.now - r.heard + 9999) / 10000) ∧ recordStanding s r =
      [if r.fresh then 1 else 2] ++ signed16 r.committed ++ [octet r.cls] ++ word16 r.stamp ++
        [octet (orderPosition r.station (restorationOrder s))] ++ word16 r.dmax ++ word16 r.gmax ++
        [octet ((r.summary.map SeqState.code).getD 0),
          octet (flag r.serviceSelected + 2 * flag r.lockout + 4 * flag r.shedPending + 8 * flag r.demand.isSome)] ++
        signed16 (r.demand.getD 0) ++ word16 (min 65535 age) := by
  refine ⟨_, inUnits_age .recordAge _, ?_⟩
  have hf : octet (if r.fresh = true then 1 else 2) = if r.fresh = true then 1 else 2 := by cases r.fresh <;> rfl
  simp only [recordStanding, standingFlags_sum, hf, List.append_assoc]
  rfl

theorem standingOf_own (s : State) : standingOf s s.station = ownStanding s := if_pos rfl

theorem standingOf_record {s : State} {station : Nat} {r : StationRecord} (ho : station ≠ s.station)
    (h : findRecord s.roster.records station = some r) : standingOf s station = recordStanding s r := by
  rw [standingOf, if_neg ho]
  simp only [h]

theorem standingOf_unheard {s : State} {station : Nat} (ho : station ≠ s.station)
    (h : findRecord s.roster.records station = none) : standingOf s station = List.replicate 17 0 := by
  rw [standingOf, if_neg ho]
  simp only [h]
  rfl

/-! ### READ-STATION -/

theorem judgeReadStation_keeps (station : Byte) (s : State) : (judgeReadStation station s).1 = s := by
  unfold judgeReadStation
  split_ifs <;> rfl

theorem exec_readStation {s : State} (h : Taking s) (station : Byte) :
    exec (.readStation station) s =
      .next (respond (judgeReadStation station (requestTaken s)).2 (requestTaken s)) := by
  have ht := takeRequest_taking h 6 false (judgeReadStation station)
  rw [judgeReadStation_keeps] at ht
  exact congrArg Host.Outcome.next ht

theorem respond_acceptedWith {u : State} (h : u.link.receiver = .idle) (data : List Byte) :
    AcceptedWith (respond (.accepted data) u) data := ⟨rfl, h⟩

/-- Settles O15, by the cases of the station asked for. -/
theorem readStationReply : Obligations.ReadStationReply := by
  intro s station htaking hsound
  refine ⟨_, restorationOrder s, s.roster.largestDemand, orderPosition station.toNat (restorationOrder s),
    exec_readStation htaking station, ?_, respond_linkElse (requestTaken_linkElse s) _, restorationOrder_sorted hsound,
    largestDemand_largest s.roster, orderPosition_placeIn .., fun h62 => ?_, fun h0 => ?_, fun h1 h62 => ⟨?_, ?_, ?_⟩⟩
  · cases (judgeReadStation station (requestTaken s)).2 <;> rfl
  · rw [judgeReadStation, if_pos h62]
    exact respond_check_refused rfl ..
  · rw [judgeReadStation, if_neg (by omega), if_pos h0]
    exact respond_acceptedWith rfl _
  all_goals rw [judgeReadStation, if_neg (by omega), if_neg (by omega)]
  · intro hown
    have hst : standingOf (requestTaken s) station.toNat = ownStanding (requestTaken s) := hown ▸ standingOf_own _
    rw [hst, ownStanding_octets, hown]
    exact respond_acceptedWith rfl _
  · intro hother r hr
    have hst : standingOf (requestTaken s) station.toNat = recordStanding (requestTaken s) r :=
      standingOf_record hother hr
    obtain ⟨age, hage, hoctets⟩ := recordStanding_octets (requestTaken s) r
    rw [findRecord_station hr] at hoctets
    refine ⟨age, hage, ?_⟩
    rw [hst, hoctets]
    exact respond_acceptedWith rfl _
  · intro hother hnone
    have hst : standingOf (requestTaken s) station.toNat = List.replicate 17 0 := standingOf_unheard hother hnone
    rw [hst]
    exact respond_acceptedWith rfl _

end Sys2Proof.Machine
end

section
/-!
The departures' common part and SUPPLY_LOSS as they leave the state (R116, R129, R164), the edges of the supply (R68, R69), and
from these O43.
-/

namespace Sys2Proof.Machine

/-! ### A departure (R116, R129, R164) -/

/-- What every departure leaves of a state, but for ATTENTION: no trip, no standing, nothing outbound, no timer of the session's
states running. -/
def departed (s : State) : State :=
  { s with
    seq := { s.seq with
      trip := none, agingTimer := .stopped, runTimer := .stopped, commitment := 0, claimClass := 0, stamp := 0
      startWindow := .stopped, joinTimer := .stopped, dwellTimer := .stopped, idleTimer := .stopped
      shedHold := .clear, shedOwed := false, lastClaim := none }
    adm := { s.adm with patience := .stopped, ownDemand := none }
    con := (clearOutbound s).con, line := (clearOutbound s).line }

/-- The end of a trip writes the same fields whether or not there was one, and ATTENTION where there was (R134). -/
theorem endTrip_eq (s : State) :
    ∃ attention, endTrip s = { s with
      seq := { s.seq with trip := none, agingTimer := .stopped }
      adm := { s.adm with patience := .stopped, ownDemand := none }
      link := { s.link with attention := attention } } := by
  cases h : s.seq.trip with
  | none =>
    refine ⟨s.link.attention, ?_⟩
    simp only [endTrip, h, Option.isSome_none, Bool.false_eq_true, if_false]
  | some x => exact ⟨true, endTrip_some h⟩

theorem leaveService_eq (s : State) :
    ∃ attention, leaveService s = { departed s with link := { s.link with attention := attention } } := by
  obtain ⟨attention, he⟩ := endTrip_eq s
  refine ⟨attention, ?_⟩
  rw [leaveService, discardTrip, he]
  rfl

theorem settleReply_held {s : State} {id : Fin 16} (h : s.link.reply = .held id) :
    settleReply s = respond (.accepted (stateData s)) s := by
  simp [settleReply, answerHeld, h]

theorem settleReply_none {s : State} (h : ∀ id, s.link.reply ≠ .held id) : settleReply s = s := by
  unfold settleReply answerHeld
  split
  · rename_i id hid
    exact absurd hid (h id)
  · rfl

theorem settleReply_attention (s : State) : (settleReply s).link.attention = s.link.attention := by
  by_cases h : ∃ id, s.link.reply = .held id
  · obtain ⟨id, hid⟩ := h
    rw [settleReply_held hid]
    rfl
  · rw [settleReply_none fun id hid => h ⟨id, hid⟩]

/-- A departure answers the waiting TRIP-CANCEL with the state it has entered (R164). -/
theorem settleReply_debts {s u : State} (hreply : u.link.reply = s.link.reply) (hattention : u.link.attention = true)
    (howed : u.seq.shedOwed = false) : DebtsSettled s (settleReply u) := by
  refine ⟨by simpa using howed, fun id hid => ?_, fun hnone => ?_⟩
  · rw [settleReply_held (hreply.trans hid), respond_accepted_reply, hattention]
    simp [stateData]
  · rw [settleReply_none (by rwa [hreply]), hreply]

/-! ### SUPPLY_LOSS (R76, R129) -/

/-- AWAIT_SUPPLY after a loss, before a waiting reply is answered. -/
def supplyGone (s : State) : State :=
  awaiting 15000000 { departed s with
    roster := {}, supply := { s.supply with settle := .stopped, underTimer := .stopped } }

theorem enterAwaitSupply_waits {s : State} (hs : s.seq.state ≠ .awaitSupply) (hg : s.supply.good = false)
    (window : Nat) : enterAwaitSupply window s = awaiting window s := by
  rw [enterAwaitSupply_eq hs, hg]
  rfl

theorem onSupplyLoss_eq {s : State} (hs : s.seq.state ≠ .awaitSupply) (hg : s.supply.good = false) :
    onSupplyLoss s = settleReply (supplyGone s) := by
  obtain ⟨attention, he⟩ := leaveService_eq s
  rw [onSupplyLoss, he, enterAwaitSupply_waits (by exact hs) (by exact hg)]
  rfl

theorem onSupplyLoss_lost {s : State} (hs : s.seq.state ≠ .awaitSupply) (hg : s.supply.good = false) :
    SupplyLost s (onSupplyLoss s) s.now := by
  obtain ⟨-, -, -, -, hline, -⟩ := clearOutbound_outbound s
  have hdebts : DebtsSettled s (settleReply (supplyGone s)) := settleReply_debts rfl rfl rfl
  rw [onSupplyLoss_eq hs hg]
  simp only [SupplyLost, settleReply_keeps, settleReply_attention, OutboundClear]
  exact ⟨rfl, rfl, rfl, rfl, rfl, rfl, rfl, rfl, rfl, rfl, rfl, rfl, rfl, rfl, rfl, rfl, rfl, rfl, rfl, rfl,
    ⟨rfl, rfl, rfl, rfl, hline⟩, rfl, rfl, rfl, rfl, rfl, rfl, rfl, rfl, rfl, rfl, rfl, rfl, rfl, rfl, hdebts⟩

/-- A loss changes nothing of the supply but its settle and UNDER timers (R72, R76). -/
theorem onSupplyLoss_supply {s : State} (hs : s.seq.state ≠ .awaitSupply) (hg : s.supply.good = false) :
    (onSupplyLoss s).supply = { s.supply with settle := .stopped, underTimer := .stopped } := by
  rw [onSupplyLoss_eq hs hg]
  simp only [settleReply_keeps]
  rfl

/-! ### JOINING (R124) -/

theorem raiseIf_ownDemand (p : Bool) (k : Condition) (s : State) :
    (raiseIf p k s).adm.ownDemand = s.adm.ownDemand := by
  unfold raiseIf raise
  split_ifs <;> rfl

/-- In JOINING nothing sheds, so a roster change leaves the own demand. -/
theorem changeRoster_joining_ownDemand (r : Roster) {s : State} (h : s.seq.state = .joining) :
    (changeRoster r s).adm.ownDemand = s.adm.ownDemand := by
  rcases changeRoster_cases r s with ⟨-, he⟩ | ⟨-, he⟩
  · rw [he]
  · have hs : (releaseShedHold { s with roster := r }).seq.state = .joining := by simpa using h
    have hd : (releaseShedHold { s with roster := r }).seq.state.driving = true := by rw [hs]; rfl
    have hshed (p : Bool) (k : Condition) (adm : AdmissionUnit) :
        shedCar (raiseIf p k { releaseShedHold { s with roster := r } with adm := adm }) =
          raiseIf p k { releaseShedHold { s with roster := r } with adm := adm } :=
      shedCar_joining (by simp [h])
    rw [he, rosterChanged]
    simp only [shedTest, hd, hshed, ite_self, Bool.not_true, Bool.false_eq_true, if_false, raiseIf_ownDemand]
    simp

theorem enterJoining_joinedNow {s : State} (h : s.seq.state ≠ .joining) :
    JoinedNow s (enterJoining s) ∧ (enterJoining s).supply = { s.supply with settle := .running s.now } := by
  obtain ⟨adm, hold, remarked, he⟩ := enterJoining_eq h
  have hdemand : (enterJoining s).adm.ownDemand = none := by
    simp only [enterJoining, markPresence_keeps]
    exact changeRoster_joining_ownDemand _ (goTo_state .joining _)
  rw [he] at hdemand ⊢
  exact ⟨⟨rfl, rfl, rfl, rfl, rfl, rfl, rfl, rfl, rfl, rfl, rfl, rfl, hdemand, rfl⟩, rfl⟩

/-! ### The edges of the supply (R68, R69) -/

theorem supplyEdge_rise {before : SupplyMonitor} {s : State} (hb : before.good = false) (hg : s.supply.good = true)
    (hs : s.seq.state = .awaitSupply ∨ s.seq.state = .noSupply) : supplyEdge before s = enterJoining s := by
  rcases hs with hs | hs <;> simp [supplyEdge, onSupplyGood, hb, hg, hs]

theorem supplyEdge_loss {before : SupplyMonitor} {s : State} (hb : before.lost = false) (hl : s.supply.lost = true)
    (hg : s.supply.good = false) (hs : s.seq.state.supplied = true) : supplyEdge before s = onSupplyLoss s := by
  simp [supplyEdge, hb, hl, hg, hs]

theorem onSupplyGood_elsewhere {s : State} (h : ¬(s.seq.state = .awaitSupply ∨ s.seq.state = .noSupply)) :
    onSupplyGood s = s := by
  unfold onSupplyGood
  split
  · exact absurd (.inl ‹_›) h
  · exact absurd (.inr ‹_›) h
  · rfl

/-- No edge that the sequencer hears of: nothing happens. -/
theorem supplyEdge_quiet {before : SupplyMonitor} {s : State}
    (hrise : ¬((s.seq.state = .awaitSupply ∨ s.seq.state = .noSupply) ∧ before.good = false ∧ s.supply.good = true))
    (hloss : ¬(s.seq.state.supplied = true ∧ before.lost = false ∧ s.supply.lost = true)) :
    supplyEdge before s = s := by
  unfold supplyEdge
  split
  · rename_i hg
    obtain ⟨hg, hb⟩ : s.supply.good = true ∧ before.good = false := by simpa using hg
    exact onSupplyGood_elsewhere fun hs => hrise ⟨hs, hb, hg⟩
  split
  · rename_i hl
    obtain ⟨⟨hl, hb⟩, hs⟩ : (s.supply.lost = true ∧ before.lost = false) ∧ s.seq.state.supplied = true := by
      simpa using hl
    exact absurd ⟨hs, hb, hl⟩ hloss
  · rfl

/-! ### The GOK debounce (R63) -/

/-- The contact's level taken as the debounced reading at the expiry (R63). -/
def gokRead (since : Nat) (s : State) : State :=
  { passTo (since + Config.contactDebounce) s with
    supply := { s.supply with gok := s.pins.gok, gokTimer := .stopped } }

theorem execGokDebounceExpiry_running {s : State} {since : Nat} (h : s.supply.gokTimer = .running since) :
    execGokDebounceExpiry s = .next (supplyEdge s.supply (gokRead since s)) := by
  rw [execGokDebounceExpiry, if_pos (by rw [h]; rfl), h]
  rfl

/-- With the class as it was, supply good rises only with GOK, in the window (R68). -/
theorem gokRead_rise (s : State) (since : Nat) :
    s.supply.good = false ∧ (gokRead since s).supply.good = true ↔
      s.supply.gok = .negated ∧ s.pins.gok = .asserted ∧ s.supply.freqClass = .inWindow := by
  cases hp : s.pins.gok <;> cases hg : s.supply.gok <;> simp [SupplyMonitor.good, gokRead, hp, hg]

/-- With the class as it was, supply is lost only with GOK, at a frequency (R69). -/
theorem gokRead_loss (s : State) (since : Nat) :
    s.supply.lost = false ∧ (gokRead since s).supply.lost = true ↔
      s.supply.gok = .asserted ∧ s.pins.gok = .negated ∧ s.supply.freqClass ≠ .absent := by
  cases hp : s.pins.gok <;> cases hg : s.supply.gok <;> simp [SupplyMonitor.lost, gokRead, hp, hg]

theorem SeqState.ne_awaitSupply_of_supplied {st : SeqState} (h : st.supplied = true) : st ≠ .awaitSupply := by
  rintro rfl
  cases h

/-- Settles O43: a rise, a loss, or no edge. -/
theorem gokDebounced : Obligations.GokDebounced := by
  intro s since hsince
  refine ⟨_, execGokDebounceExpiry_running hsince, ?_⟩
  have hnow : (supplyEdge s.supply (gokRead since s)).now = max s.now (since + 200000) := by
    rw [(supplyEdge_keeps ..).1]
    rfl
  have hconfig : (supplyEdge s.supply (gokRead since s)).config = s.config := by simp [gokRead]
  have hpins : (supplyEdge s.supply (gokRead since s)).pins = s.pins := by simp [gokRead]
  by_cases hrise : (s.seq.state = .awaitSupply ∨ s.seq.state = .noSupply) ∧ s.supply.gok = .negated ∧
      s.pins.gok = .asserted ∧ s.supply.freqClass = .inWindow
  · obtain ⟨hstate, hgok⟩ := id hrise
    obtain ⟨hb, hg⟩ := (gokRead_rise s since).mpr hgok
    have hne : (gokRead since s).seq.state ≠ .joining := by
      rcases hstate with h | h <;> simp [gokRead, h]
    obtain ⟨hjoined, hsupply⟩ := enterJoining_joinedNow hne
    rw [supplyEdge_rise hb hg hstate] at hnow hconfig hpins ⊢
    refine ⟨by rw [hsupply]; rfl, by rw [hsupply]; rfl, hnow, hconfig, hpins, fun _ _ _ _ => hjoined, ?_,
      fun hn => absurd hrise hn, ?_⟩
    · intro _ hasserted
      simp [hgok.1] at hasserted
    · intro heq
      simp [hgok] at heq
  by_cases hloss : s.seq.state.supplied = true ∧ s.supply.gok = .asserted ∧ s.pins.gok = .negated ∧
      s.supply.freqClass ≠ .absent
  · obtain ⟨hstate, hgok⟩ := id hloss
    obtain ⟨hb, hl⟩ := (gokRead_loss s since).mpr hgok
    have hg : (gokRead since s).supply.good = false := by simp [gokRead, SupplyMonitor.good, hgok]
    have hne := SeqState.ne_awaitSupply_of_supplied hstate
    have hsupply := onSupplyLoss_supply (s := gokRead since s) hne hg
    rw [supplyEdge_loss hb hl hg hstate] at hnow hconfig hpins ⊢
    refine ⟨by rw [hsupply]; rfl, by rw [hsupply]; rfl, hnow, hconfig, hpins, ?_, fun _ _ _ _ => ?_,
      fun _ hn => absurd hloss hn, ?_⟩
    · intro _ hnegated
      simp [hgok.1] at hnegated
    · rw [(onSupplyLoss_keeps _).1]
      exact onSupplyLoss_lost (s := gokRead since s) hne hg
    · intro heq
      simp [hgok] at heq
  · have hquiet : supplyEdge s.supply (gokRead since s) = gokRead since s := by
      refine supplyEdge_quiet ?_ ?_
      · rwa [gokRead_rise]
      · rwa [gokRead_loss]
    rw [hquiet] at hnow ⊢
    exact ⟨rfl, rfl, hnow, rfl, rfl, fun h1 h2 h3 h4 => absurd ⟨h1, h2, h3, h4⟩ hrise,
      fun h1 h2 h3 h4 => absurd ⟨h1, h2, h3, h4⟩ hloss, fun _ _ => rfl, fun _ => rfl⟩

end Sys2Proof.Machine
end

section
/-!
Conditions raised (R43, R45), the evaluation that does not end its trip (R46, R47, R57), the CLAIM chosen upon an ADMIT (R52,
R107, R108), and from these O51.
-/

namespace Sys2Proof.Machine

/-! ### Conditions raised (R43, R45, R170) -/

/-- Nothing is written but conditions and ATTENTION, of which none is lowered that stood (R43). -/
structure OnlyRaised (s t : State) : Prop where
  frame : t = { s with
    adm := { s.adm with conditions := t.adm.conditions }, link := { s.link with attention := t.link.attention } }
  attention : s.link.attention = true → t.link.attention = true
  saturate : s.adm.conditions.saturate = true → t.adm.conditions.saturate = true

theorem OnlyRaised.refl (s : State) : OnlyRaised s s := ⟨rfl, id, id⟩

theorem OnlyRaised.trans {s t u : State} (h : OnlyRaised s t) (h' : OnlyRaised t u) : OnlyRaised s u := by
  refine ⟨?_, h'.attention ∘ h.attention, h'.saturate ∘ h.saturate⟩
  rw [h'.frame, h.frame]

theorem Conditions.raised_saturate {c : Conditions} {k : Condition} (h : c.saturate = true) :
    (c.raised k).saturate = true := by
  cases k
  case saturate => rfl
  all_goals exact h

theorem raiseIf_onlyRaised (p : Bool) (k : Condition) (s : State) : OnlyRaised s (raiseIf p k s) := by
  unfold raiseIf raise
  split
  · split
    · exact .refl s
    · exact ⟨rfl, fun _ => rfl, Conditions.raised_saturate⟩
  · exact .refl s

theorem raiseAtEvaluation_onlyRaised (s : State) : OnlyRaised s (raiseAtEvaluation s) :=
  ((raiseIf_onlyRaised ..).trans (raiseIf_onlyRaised ..)).trans (raiseIf_onlyRaised ..)

/-! ### The evaluation at a reference point (R46, R47, R57) -/

/-- The state an evaluation leaves that does not end the trip, but for the conditions it raises. -/
def evaluated (x : Trip) (s : State) : State :=
  { s with adm := { s.adm with
      view := viewAfter s (decideTrip s x)
      patience := patienceAfter s.adm.patience (decideTrip s x).outcome x.cls s.now } }

theorem evaluateTrip_evaluated {s : State} {x : Trip} (h : (decideTrip s x).outcome ≠ .exceeds) :
    OnlyRaised (evaluated x s) (evaluateTrip x s) := by
  obtain ⟨hframe, hattention, hsaturate⟩ := raiseAtEvaluation_onlyRaised s
  simp only [evaluateTrip, if_neg h]
  refine ⟨?_, hattention, hsaturate⟩
  generalize raiseAtEvaluation s = u at hframe
  rw [hframe]
  rfl

/-- A PENDING record is evaluated in every driving state (R46). -/
theorem evaluable_pending {s : State} {x : Trip} (hx : x.phase = .pending) (hs : s.seq.state.driving = true) :
    evaluable s x = true := by
  have hf : s.seq.state ≠ .fallback := by rintro h; rw [h] at hs; cases hs
  have hi : s.seq.state ≠ .isolated := by rintro h; rw [h] at hs; cases hs
  simp [evaluable, hx, hf, hi]

/-! ### The CLAIM chosen (R52, R107, R108) -/

/-- The round timer restarts from the reference point's instant (R100). -/
def atReference (instant : Nat) (s : State) : State :=
  { s with con := { s.con with roundTimer := .running instant } }

theorem referencePoint_eq (instant : Nat) (s : State) :
    referencePoint instant s =
      chooseSlot instant (admittedOffer (atReference instant s)) (evaluate (atReference instant s)) := rfl

/-- With no RELEASE posted, a CLAIM that this evaluation admits is what the choice takes (R107). -/
theorem chooseSlot_claim {s : State} {instant : Nat} {o : Option SpeedStep × StepFigures} {p : ClaimPost} {x : Trip}
    (hm : mayChoose s = true) (hr : s.con.releaseSlot = none) (hp : s.con.claimSlot = some p)
    (hx : s.seq.trip = some x) : chooseSlot instant (some o) s = chooseClaim instant x o s := by
  simp only [chooseSlot, hm, if_true, hr, hp, hx]

/-- A reference point of an open round that admits the waiting claim chooses it (R46, R52, R107). -/
theorem referencePoint_admits {s : State} {instant : Nat} {x : Trip} {p : ClaimPost}
    {o : Option SpeedStep × StepFigures} (hm : mayChoose s = true) (hr : s.con.releaseSlot = none) (hp : s.con.claimSlot = some p)
    (hx : s.seq.trip = some x) (hphase : x.phase = .pending)
    (hd : decideTrip s x = { outcome := .admitted, offer := some o }) :
    ∃ u, OnlyRaised (evaluated x (atReference instant s)) u ∧
      referencePoint instant s = chooseClaim instant x o u := by
  obtain ⟨hopen, hspoken, hstate, hattempt⟩ := (mayChoose_iff s).mp hm
  have hv : (atReference instant s).seq.trip = some x := hx
  have hdv : decideTrip (atReference instant s) x = { outcome := .admitted, offer := some o } := hd
  have he : evaluable (atReference instant s) x = true := evaluable_pending hphase hstate
  have hoffer : admittedOffer (atReference instant s) = some o := by simp only [admittedOffer, hv, he, if_true, hdv]
  have hevaluate : evaluate (atReference instant s) = evaluateTrip x (atReference instant s) := by
    simp only [evaluate, hv, he, if_true]
  have hraised : OnlyRaised (evaluated x (atReference instant s)) (evaluateTrip x (atReference instant s)) :=
    evaluateTrip_evaluated (by rw [hdv]; exact Admission.noConfusion)
  refine ⟨_, hraised, ?_⟩
  rw [referencePoint_eq, hoffer, hevaluate]
  generalize evaluateTrip x (atReference instant s) = u at hraised
  rw [hraised.frame]
  exact chooseSlot_claim ((mayChoose_iff _).mpr ⟨hopen, hspoken, hstate, hattempt⟩) hr hp hx

/-- The round closes at 920 bit times: nothing is spoken in the round that opens (R101). -/
def roundClosed (since : Nat) (s : State) : State :=
  { passTo (since + Config.roundLength) s with con := { s.con with spoken := false, roundOpen := true } }

theorem execRoundClose_running {s : State} {since : Nat} (h : s.con.roundTimer = .running since) :
    execRoundClose s = .next (referencePoint (roundClosed since s).now (roundClosed since s)) := by
  rw [execRoundClose, if_pos (by rw [h]; rfl), h]
  rfl

/-- Settles O51. -/
theorem claimChosen : Obligations.ClaimChosen := by
  intro s since x p v f hround hattempt hstate hrelease hpost hx hphase hd
  have hm : mayChoose (roundClosed since s) = true := (mayChoose_iff _).mpr ⟨rfl, rfl, hstate, hattempt⟩
  obtain ⟨u, ⟨hframe, -, -⟩, hpoint⟩ :=
    referencePoint_admits (instant := (roundClosed since s).now) hm hrelease hpost hx hphase hd
  refine ⟨_, (execRoundClose_running hround).trans (congrArg Host.Outcome.next hpoint), ?_⟩
  rw [hframe]
  refine ⟨rfl, rfl, rfl, rfl, ?_, ?_, rfl, rfl, hpost, rfl, rfl, rfl, rfl, rfl⟩
  · show (decideTrip s x).outcome = .admitted
    rw [hd]
  · show ((decideTrip s x).offer.bind fun y => y.1) = v
    rw [hd]
    rfl

end Sys2Proof.Machine
end

section
/-!
What a roster change sets off (R28, R151 to R157): when a change is one, the shed hold and the shed test as they leave the state,
the shedding of the own car by its state; and the report interval (R22, R106), from which O14.
-/

namespace Sys2Proof.Machine

/-! ### A roster change (R28) -/

theorem sameStandings_iff (old new : List StationRecord) :
    sameStandings old new = true ↔ ¬RosterChange old new := by
  unfold RosterChange
  rw [not_not]
  induction old generalizing new with
  | nil => cases new <;> simp [sameStandings]
  | cons a old ih =>
    cases new with
    | nil => simp [sameStandings]
    | cons b new => simp [sameStandings, sameStanding, ih, and_assoc]

/-- A shed hold that waits for the last demand is CLEAR when the changed roster yields none (R27, R157). -/
theorem releaseShedHold_withRoster (s : State) (r : Roster) :
    releaseShedHold { s with roster := r } = withRoster s r := by
  have hd := (largestDemand_largest r).1
  by_cases h : s.seq.shedHold = .awaitDemand ∧ r.largestDemand = none
  · have h' : s.seq.shedHold = .awaitDemand ∧ ∀ x ∈ r.records, x.demand = none := ⟨h.1, hd.mp h.2⟩
    rw [releaseShedHold, if_pos h, withRoster, if_pos h']
  · have h' : ¬(s.seq.shedHold = .awaitDemand ∧ ∀ x ∈ r.records, x.demand = none) :=
      fun hn => h ⟨hn.1, hd.mpr hn.2⟩
    rw [releaseShedHold, if_neg h, withRoster, if_neg h']

theorem changeRoster_same {s : State} {r : Roster} (h : ¬RosterChange s.roster.records r.records) :
    changeRoster r s = { s with roster := r } := by
  rcases changeRoster_cases r s with ⟨-, he⟩ | ⟨hs, -⟩
  · exact he
  · rw [(sameStandings_iff ..).mpr h] at hs
    cases hs

theorem changeRoster_change {s : State} {r : Roster} (h : RosterChange s.roster.records r.records) :
    changeRoster r s = shedTest (withRoster s r) := by
  rcases changeRoster_cases r s with ⟨hs, -⟩ | ⟨-, he⟩
  · exact absurd h ((sameStandings_iff ..).mp hs)
  · rw [he, rosterChanged, releaseShedHold_withRoster]

/-! ### An attempt lost (R110, R112, R135) -/

/-- At most a WAITING attempt was abandoned, and with a CLAIM's its ARMED record is PENDING again (R110, R135). -/
structure AttemptLost (s t : State) : Prop where
  frame : t = { s with
    seq := { s.seq with trip := t.seq.trip }, con := t.con, link := { s.link with attention := t.link.attention } }
  con : t.con = s.con ∨ t.con = s.con.noAttempt
  trip : t.seq.trip = s.seq.trip ∨
    ∃ x, s.seq.trip = some x ∧ x.phase = .armed ∧ t.seq.trip = some { x with phase := .pending, step := none }
  attention : s.link.attention = true → t.link.attention = true

theorem AttemptLost.refl (s : State) : AttemptLost s s := ⟨rfl, .inl rfl, .inl rfl, id⟩

theorem claimLost_lost (s : State) : AttemptLost s (claimLost s) := by
  unfold claimLost
  split
  · rename_i x hx
    split
    · rename_i ha
      exact ⟨rfl, .inl rfl, .inr ⟨x, hx, ha, rfl⟩, fun _ => rfl⟩
    · exact .refl s
  · exact .refl s

theorem abandonAttempt_lost (s : State) : AttemptLost s (abandonAttempt s) := by
  unfold abandonAttempt
  split
  · dsimp only
    split
    · obtain ⟨hframe, hcon, htrip, hattention⟩ := claimLost_lost { s with con := s.con.noAttempt }
      refine ⟨hframe, .inr ?_, htrip, hattention⟩
      rcases hcon with hcon | hcon <;> rw [hcon]
      rfl
    · exact ⟨rfl, .inr rfl, .inl rfl, id⟩
  · exact .refl s

theorem AttemptLost.slots {s t : State} (h : AttemptLost s t) :
    t.con.releaseSlot = s.con.releaseSlot ∧ t.con.claimSlot = s.con.claimSlot ∧
      t.con.presenceDue = s.con.presenceDue := by
  rcases h.con with hc | hc <;> rw [hc] <;> exact ⟨rfl, rfl, rfl⟩

theorem AttemptLost.tripId {s t : State} (h : AttemptLost s t) :
    t.seq.trip.map Trip.id = s.seq.trip.map Trip.id := by
  rcases h.trip with ht | ⟨x, hx, -, ht⟩
  · rw [ht]
  · rw [ht, hx]
    rfl

/-- Only an ARMED record is touched. -/
theorem AttemptLost.tripIn {s t : State} (h : AttemptLost s t) {p : TripPhase} (hp : p ≠ .armed)
    (hin : tripIn p s = true) : tripIn p t = true := by
  rcases h.trip with ht | ⟨x, hx, hx', -⟩
  · rwa [Machine.tripIn, ht]
  · rw [Machine.tripIn, hx] at hin
    simp [hx', hp.symm] at hin

/-- The slot and the mark of a SENDING one superseded, before a WAITING CLAIM is abandoned (R105, R112). -/
def releasePosted (r : Release) (s : State) : State :=
  { s with con := { s.con with
    releaseSlot := some r, superseded := s.con.superseded || s.con.attempt.isSending .release } }

theorem postRelease_lost (r : Release) (s : State) : AttemptLost (releasePosted r s) (postRelease r s) := by
  unfold postRelease
  dsimp only
  split
  · exact abandonAttempt_lost _
  · exact .refl _

/-! ### The own car shed, by its state (R154, R155, R156) -/

theorem shedCar_serviceIdle {s : State} (h : s.seq.state = .serviceIdle) :
    shedCar s = enterParked (postShed s.seq.lastTripId { s with seq := { s.seq with idleTimer := .stopped } }) := by
  simp only [shedCar, h]

theorem shedCar_serviceWait {s : State} (h : s.seq.state = .serviceWait) (ha : s.con.attempt.isSending .claim = false) :
    shedCar s = enterParked (postShed s.seq.lastTripId (endTrip (withdrawClaim s))) := by
  simp only [shedCar, h, ha, Bool.false_eq_true, if_false]

theorem shedCar_serviceWait_sending {s : State} (h : s.seq.state = .serviceWait)
    (ha : s.con.attempt.isSending .claim = true) :
    shedCar s = { s with
      seq := { s.seq with shedOwed := true, trip := s.seq.trip.map fun x => { x with cancel := true } }
      con := { s.con with withdrawn := true } } := by
  simp only [shedCar, h, ha, if_true, oweShed, withdrawClaim]

theorem shedCar_serviceRun {s : State} (h : s.seq.state = .serviceRun) :
    shedCar s = markPresence { s with
      seq := { s.seq with state := .shedPending, shdn := true }, link := { s.link with attention := true } } := by
  simp only [shedCar, h, enterShedPending]
  rw [goTo_other (by simp [h])]
  rfl

theorem shedCar_waiting {s : State} (h : s.seq.state = .assess ∨ s.seq.state = .evacWait) :
    shedCar s = postShed s.seq.lastTripId s := by
  rcases h with h | h <;> simp only [shedCar, h]

/-- In the other states nothing is shed (R154). -/
theorem shedCar_elsewhere {s : State} (h : s.seq.state ≠ .serviceIdle ∧ s.seq.state ≠ .serviceWait ∧
    s.seq.state ≠ .serviceRun ∧ s.seq.state ≠ .assess ∧ s.seq.state ≠ .evacWait) : shedCar s = s := by
  obtain ⟨h1, h2, h3, h4, h5⟩ := h
  unfold shedCar
  split
  · exact absurd ‹_› h1
  · exact absurd ‹_› h2
  · exact absurd ‹_› h3
  · exact absurd ‹_› h4
  · exact absurd ‹_› h5
  · rfl

/-- The RELEASE of a shed posted: a WAITING CLAIM is abandoned, the shed hold starts and PRESENCE is due (R154, R157). -/
theorem postShed_eq {s : State} (hs : s.seq.state.driving = true) (id : Fin 16) :
    ∃ u, AttemptLost (releasePosted (shedRelease id) s) u ∧ postShed id s = { u with
      seq := { u.seq with shedHold := .timing s.now }
      con := { u.con with
        presenceDue := true, remarked := u.con.remarked || u.con.attempt.serves .presence } } := by
  refine ⟨_, postRelease_lost (shedRelease id) s, ?_⟩
  have hnow : (postRelease (shedRelease id) s).now = s.now := by simp
  have hd : (postRelease (shedRelease id) s).seq.state.driving = true := by simpa using hs
  rw [postShed, markPresence_driving (by exact hd), ← hnow]
  rfl

theorem enterParked_eq {s : State} (h : s.seq.state ≠ .parked) :
    enterParked s = { s with
      seq := { s.seq with state := .parked, shdn := false }
      con := { s.con with
        presenceDue := true, remarked := s.con.remarked || s.con.attempt.serves .presence }
      link := { s.link with attention := true } } := by
  rw [enterParked, goTo_other h, markPresence_driving rfl]
  rfl

theorem AttemptLost.trip_none {s t : State} (h : AttemptLost s t) (hs : s.seq.trip = none) : t.seq.trip = none := by
  rcases h.trip with ht | ⟨x, hx, -, -⟩
  · rw [ht, hs]
  · rw [hs] at hx
    cases hx

/-- A shed that parks the car (R154): the fields that are written, and what becomes of the trip record. -/
structure ShedParked (s t : State) : Prop where
  state : t.seq.state = .parked
  idleTimer : t.seq.idleTimer = s.seq.idleTimer
  agingTimer : t.seq.agingTimer = s.seq.agingTimer
  releaseSlot : t.con.releaseSlot = some (shedRelease s.seq.lastTripId)
  claimSlot : t.con.claimSlot = s.con.claimSlot
  shedHold : t.seq.shedHold = .timing s.now
  presenceDue : t.con.presenceDue = true
  attention : t.link.attention = true
  trip : ∃ u, AttemptLost (releasePosted (shedRelease s.seq.lastTripId) s) u ∧ t.seq.trip = u.seq.trip

theorem enterParked_postShed {s : State} (hd : s.seq.state.driving = true) (hp : s.seq.state ≠ .parked) :
    ShedParked s (enterParked (postShed s.seq.lastTripId s)) := by
  obtain ⟨u, hu, hpost⟩ := postShed_eq hd s.seq.lastTripId
  obtain ⟨hrelease, hclaim, -⟩ := hu.slots
  have hseq : u.seq = { s.seq with trip := u.seq.trip } := by rw [hu.frame]; rfl
  rw [hpost, enterParked_eq (by rw [hseq]; exact hp)]
  exact ⟨rfl, by rw [hseq], by rw [hseq], hrelease, hclaim, rfl, rfl, rfl, u, hu, rfl⟩

/-- In SERVICE_WAIT the trip has ended and its CLAIM is withdrawn before the shed is posted (R154). -/
theorem endTrip_withdrawClaim {s : State} (h : s.con.attempt.isSending .claim = false) :
    (endTrip (withdrawClaim s)).seq.state = s.seq.state ∧ (endTrip (withdrawClaim s)).seq.trip = none ∧
      (endTrip (withdrawClaim s)).seq.agingTimer = .stopped ∧ (endTrip (withdrawClaim s)).con.claimSlot = none ∧
      (endTrip (withdrawClaim s)).now = s.now ∧ (endTrip (withdrawClaim s)).seq.lastTripId = s.seq.lastTripId := by
  have hslot : (withdrawClaim s).con.claimSlot = none := by
    rcases withdrawClaim_slot s with ⟨hs, -⟩ | ⟨-, hslot⟩
    · rw [h] at hs
      cases hs
    · exact hslot
  have hid : (withdrawClaim s).seq.lastTripId = s.seq.lastTripId := by
    simp only [withdrawClaim, h, Bool.false_eq_true, if_false]
    split
    · rw [(abandonAttempt_lost s).frame]
    · rfl
  obtain ⟨attention, he⟩ := endTrip_eq (withdrawClaim s)
  rw [he]
  exact ⟨by simp, rfl, rfl, hslot, by simp, hid⟩

/-- What the shed of a car in the set does to it, in every state (R154 to R156). The state before it is read only through the
sequencer, the contention unit and the shed set. -/
theorem shedCar_acted {s v : State} (hown : ShedsOwn s) (hseq : v.seq = s.seq) (hcon : v.con = s.con) :
    ShedActed s (shedCar v) := by
  have hnow : (shedCar v).now = v.now := by simp
  refine ⟨fun hn => absurd hown hn, fun _ => ?_⟩
  rw [hnow, ← hseq, ← hcon]
  refine ⟨fun h => ?_, fun h ha => ?_, fun h ha => ?_, fun h => ?_, fun h => ?_, fun h => ?_⟩
  · have hp := enterParked_postShed (s := { v with seq := { v.seq with idleTimer := .stopped } })
      (by simp only [h]; rfl) (by simp [h])
    obtain ⟨u, hu, htrip⟩ := hp.trip
    rw [shedCar_serviceIdle h]
    refine ⟨hp.state, hp.idleTimer, hp.releaseSlot, hp.shedHold, hp.presenceDue, hp.attention, fun hin => ?_⟩
    have huin : tripIn .ending u = true := hu.tripIn (by decide) (by rw [tripIn, ← hseq] at hin; exact hin)
    rw [tripIn] at huin ⊢
    rw [htrip]
    exact huin
  · obtain ⟨hstate, hnone, haging, hclaim, hnow', hid⟩ := endTrip_withdrawClaim ha
    have hp := enterParked_postShed (s := endTrip (withdrawClaim v)) (by rw [hstate, h]; rfl) (by rw [hstate, h]; decide)
    obtain ⟨u, hu, htrip⟩ := hp.trip
    rw [shedCar_serviceWait h ha, ← hid]
    refine ⟨hp.state, htrip.trans (hu.trip_none hnone), hp.claimSlot.trans hclaim, hp.agingTimer.trans haging,
      hp.releaseSlot, ?_, hp.presenceDue, hp.attention⟩
    rw [hp.shedHold, hnow']
  · rw [shedCar_serviceWait_sending h ha]
    exact ⟨rfl, rfl⟩
  · rw [shedCar_serviceRun h, markPresence_driving rfl]
    exact ⟨rfl, fun _ => rfl, rfl, rfl, rfl⟩
  · obtain ⟨u, hu, hpost⟩ := postShed_eq (s := v) (by rcases h with h | h <;> rw [h] <;> rfl) v.seq.lastTripId
    obtain ⟨hrelease, hclaim, -⟩ := hu.slots
    have hseq' : u.seq = { v.seq with trip := u.seq.trip } := by rw [hu.frame]; rfl
    rw [shedCar_waiting h, hpost]
    refine ⟨?_, hu.tripId, hclaim, hrelease, rfl⟩
    rw [hseq']
  · rw [shedCar_elsewhere (by rcases h with h | h | h | h | h <;> rw [h] <;> decide)]
    exact ⟨rfl, rfl⟩

/-- No shed touches the shed view or a condition. -/
theorem shedCar_view (s : State) :
    (shedCar s).adm.shedView = s.adm.shedView ∧ (shedCar s).adm.conditions = s.adm.conditions := by
  have hend (u : State) : (endTrip u).adm.shedView = u.adm.shedView ∧ (endTrip u).adm.conditions = u.adm.conditions := by
    obtain ⟨attention, he⟩ := endTrip_eq u
    rw [he]
    exact ⟨rfl, rfl⟩
  unfold shedCar
  split
  · simp
  · split <;> simp [hend]
  · simp
  · simp
  · simp
  · simp

/-! ### The shed test (R151, R152) -/

/-- The shed view that a shed test writes. -/
def shedViewOf (s : State) : ShedView :=
  { excess := shedExcess s, size := (shedSet s).length, own := (shedSet s).any fun e => e.station == s.station }

theorem shedViewOf_own (s : State) : (shedViewOf s).own = true ↔ ShedsOwn s := by
  simp [shedViewOf, ShedsOwn]

theorem raiseIf_saturate {p : Bool} (hp : p = true) (s : State) :
    (raiseIf p .saturate s).adm.conditions.saturate = true := by
  rw [raiseIf, if_pos hp, raise]
  split
  · rename_i h
    exact h
  · rfl

/-- In a driving state the shed test writes its view, raises SATURATE for a sum held at 65535, and sheds the own car if the set
holds it. -/
theorem shedTest_driving {s : State} (h : s.seq.state.driving = true) :
    ∃ v, OnlyRaised { s with adm := { s.adm with shedView := shedViewOf s } } v ∧
      (65535 ≤ announcedTotal s → v.adm.conditions.saturate = true) ∧
      (ShedsOwn s → shedTest s = shedCar v) ∧ (¬ShedsOwn s → shedTest s = v) := by
  refine ⟨_, raiseIf_onlyRaised (heldSum (announcedTotal s) == Config.sumLimit) .saturate _, fun hsum => ?_,
    fun hown => ?_, fun hown => ?_⟩
  · refine raiseIf_saturate ?_ _
    simpa [heldSum, Config.sumLimit] using hsum
  · rw [← shedViewOf_own] at hown
    simp only [shedTest, h, Bool.not_true, Bool.false_eq_true, if_false]
    exact if_pos hown
  · rw [← shedViewOf_own] at hown
    simp only [shedTest, h, Bool.not_true, Bool.false_eq_true, if_false]
    exact if_neg hown

theorem shedTest_viewed {s : State} (h : s.seq.state.driving = true) : ShedViewed s (shedTest s) := by
  obtain ⟨v, hv, hsat, hshed, hleave⟩ := shedTest_driving h
  have hview : v.adm.shedView = shedViewOf s := by rw [hv.frame]
  have hwritten : (shedTest s).adm.shedView = shedViewOf s ∧ (shedTest s).adm.conditions = v.adm.conditions := by
    by_cases hown : ShedsOwn s
    · rw [hshed hown, (shedCar_view v).1, (shedCar_view v).2]
      exact ⟨hview, rfl⟩
    · rw [hleave hown]
      exact ⟨hview, rfl⟩
  rw [ShedViewed, hwritten.1, hwritten.2]
  exact ⟨rfl, rfl, shedViewOf_own s, hsat⟩

theorem shedTest_acted {s : State} (h : s.seq.state.driving = true) : ShedActed s (shedTest s) := by
  obtain ⟨v, hv, -, hshed, hleave⟩ := shedTest_driving h
  have hseq : v.seq = s.seq := by rw [hv.frame]
  have hcon : v.con = s.con := by rw [hv.frame]
  by_cases hown : ShedsOwn s
  · rw [hshed hown]
    exact shedCar_acted hown hseq hcon
  · rw [hleave hown]
    refine ⟨fun _ => ?_, fun hn => absurd hn hown⟩
    rw [hseq, hcon]
    exact ⟨rfl, rfl, rfl⟩

/-- A car outside the shed set is left as it is. -/
theorem shedTest_spared {s : State} (h : s.seq.state.driving = true) (hown : ¬ShedsOwn s) :
    (shedTest s).seq = s.seq ∧ (shedTest s).con = s.con := by
  obtain ⟨v, hv, -, -, hleave⟩ := shedTest_driving h
  rw [hleave hown, hv.frame]
  exact ⟨rfl, rfl⟩

/-! ### The report interval (R22, R106) -/

/-- What a roster change compares of a record (R28). -/
def standing (r : StationRecord) : Nat × Int × Nat × Nat × Bool × Option Int :=
  (r.station, r.committed, r.cls, r.stamp, r.fresh, r.demand)

theorem findRecord_standing (l : List StationRecord) (n : Nat) :
    (findRecord l n).map standing = (l.map standing).find? fun x => x.1 == n :=
  (List.find?_map (f := standing) (p := fun x : Nat × Int × Nat × Nat × Bool × Option Int => x.1 == n)).symm

/-- Without a roster change every station's record stands as it stood. -/
theorem findRecord_unchanged {old new : List StationRecord} (h : ¬RosterChange old new) (n : Nat) :
    (findRecord old n).map standing = (findRecord new n).map standing := by
  have he : old.map standing = new.map standing := not_not.mp h
  rw [findRecord_standing, findRecord_standing, he]

/-- The roster with a station's record gone STALE (R22). -/
def goneStale (s : State) (r : StationRecord) : Roster :=
  { s.roster with records := putRecord s.roster.records { r with fresh := false } }

theorem findRecord_goneStale {s : State} {station : Nat} {r : StationRecord}
    (hr : findRecord s.roster.records station = some r) :
    findRecord (goneStale s r).records station = some { r with fresh := false } := by
  have h := findRecord_putRecord_self s.roster.records { r with fresh := false }
  rw [← findRecord_station hr]
  exact h

/-- A FRESH record gone STALE is a roster change (R28). -/
theorem rosterChange_goneStale {s : State} {station : Nat} {r : StationRecord}
    (hr : findRecord s.roster.records station = some r) (hf : r.fresh = true) :
    RosterChange s.roster.records (goneStale s r).records := by
  by_contra h
  have hs := findRecord_unchanged h station
  rw [hr, findRecord_goneStale hr] at hs
  simp [standing, hf] at hs

theorem execRecordStale_fresh {s : State} {station : Nat} {r : StationRecord}
    (hr : findRecord s.roster.records station = some r) (hf : r.fresh = true) :
    execRecordStale station s =
      .next (shedTest (withRoster (passTo (r.heard + staleTime s) s) (goneStale s r))) := by
  have hchange := changeRoster_change (s := passTo (r.heard + staleTime s) s) (r := goneStale s r)
    (rosterChange_goneStale hr hf)
  rw [← hchange]
  simp only [execRecordStale, hr, hf, if_true]
  rfl

theorem execPresenceDueExpiry_driving {s : State} {since : Nat} (ht : s.con.presenceTimer = .running since)
    (hs : s.seq.state.driving = true) :
    execPresenceDueExpiry s = .next { passTo (since + reportTime s) s with
      con := { s.con with
        presenceTimer := .stopped, presenceDue := true
        remarked := s.con.remarked || s.con.attempt.serves .presence } } := by
  have hmark := markPresence_driving (s := { passTo (since + reportTime s) s with
    con := { s.con with presenceTimer := .stopped } }) hs
  rw [execPresenceDueExpiry, if_pos (by rw [ht]; rfl), ht]
  exact congrArg Host.Outcome.next hmark

/-- The report interval in units of 10 microseconds (R22, R106). -/
theorem reportTime_eq (s : State) : reportTime s = (conf s).reportInterval * 100000 := by
  rw [reportTime, Config.millisecond, Nat.mul_assoc]

/-- Settles O14: the record gone STALE with the shed test upon it, and PRESENCE due. -/
theorem reportIntervalRunsOut : Obligations.ReportIntervalRunsOut := by
  constructor
  · intro s station r hr hf
    have hroster :
        (shedTest (withRoster (passTo (r.heard + staleTime s) s) (goneStale s r))).roster = goneStale s r := by
      simp [withRoster]
    refine ⟨_, execRecordStale_fresh hr hf, ?_⟩
    rw [hroster]
    refine ⟨?_, findRecord_goneStale hr, fun n hn => ?_, rfl, rfl, by simp [withRoster], by simp [withRoster],
      by simp [withRoster], by simp [withRoster], fun hs => ?_, fun hs => ⟨?_, ?_, fun hown => ?_⟩⟩
    · rw [← reportTime_eq]
      simp [withRoster, passTo, staleTime]
    · exact findRecord_putRecord_other _ _ n (by rw [findRecord_station hr]; exact hn)
    · rw [shedTest_silent (withRoster (passTo (r.heard + staleTime s) s) (goneStale s r)) hs]
      exact ⟨rfl, rfl, rfl⟩
    · exact shedTest_viewed (s := withRoster (passTo (r.heard + staleTime s) s) (goneStale s r)) hs
    · exact shedTest_acted (s := withRoster (passTo (r.heard + staleTime s) s) (goneStale s r)) hs
    · exact shedTest_spared (s := withRoster (passTo (r.heard + staleTime s) s) (goneStale s r)) hs hown
  · intro s since ht hs
    rw [← reportTime_eq]
    exact execPresenceDueExpiry_driving ht hs

end Sys2Proof.Machine
end

section
/-!
What a delivered message leaves in the roster, station by station (R20 to R26, R31, R32), and what the filters keep of it (R97,
R177, R178).
-/

namespace Sys2Proof.Machine

/-! ### The roster after a delivery (R31, R32) -/

/-- The offered stamp advances the mark (R31). -/
def Advances (m : Message) (r : Roster) : Prop :=
  offeredStamp m.body ≠ 0 ∧ (r.mark = 0 ∨ newerThan (offeredStamp m.body) r.mark = true)

theorem offerStamp_advances {m : Message} {r : Roster} (h : Advances m r) :
    offerStamp (offeredStamp m.body) r = { r with
      mark := offeredStamp m.body
      records := r.records.map fun x => { x with stamp := floored (offeredStamp m.body) x.stamp } } := by
  rw [offerStamp, if_neg h.1, if_pos h.2]

theorem offerStamp_stays {m : Message} {r : Roster} (h : ¬Advances m r) : offerStamp (offeredStamp m.body) r = r := by
  unfold offerStamp
  split
  · rfl
  · rw [if_neg fun hn => h ⟨‹_›, hn⟩]

/-- A mark that advances is another mark. -/
theorem Advances.mark_ne {m : Message} {r : Roster} (h : Advances m r) : offeredStamp m.body ≠ r.mark := by
  obtain ⟨hne, hzero | hnewer⟩ := h
  · rwa [hzero]
  · intro heq
    rw [newerThan_iff, heq, ringDiff_self] at hnewer
    omega

theorem deliverToRoster_mark {r : Roster} (h : r.isOpen = true) (m : Message) (now : Nat) :
    (deliverToRoster m now r).mark =
      if offeredStamp m.body ≠ 0 ∧ (r.mark = 0 ∨ newerThan (offeredStamp m.body) r.mark)
        then offeredStamp m.body else r.mark := by
  rw [deliverToRoster_open h]
  by_cases ha : Advances m r
  · exact (congrArg Roster.mark (offerStamp_advances ha)).trans (if_pos ha).symm
  · exact (congrArg Roster.mark (offerStamp_stays ha)).trans (if_neg ha).symm

/-- The sender's record (R20 to R25). -/
theorem findRecord_delivered {r : Roster} (h : r.isOpen = true) (m : Message) (now : Nat) :
    findRecord (deliverToRoster m now r).records m.station = some (deliveredRecord m now r) := by
  obtain ⟨hstation, -, -⟩ := deliveredRecord_heard m now r
  have hfind := findRecord_putRecord_self (offerStamp (offeredStamp m.body) r).records (deliveredRecord m now r)
  rw [hstation] at hfind
  rw [deliverToRoster_open h]
  exact hfind

theorem findRecord_map {l : List StationRecord} {f : StationRecord → StationRecord}
    (hf : ∀ x, (f x).station = x.station) (n : Nat) : findRecord (l.map f) n = (findRecord l n).map f := by
  rw [findRecord, List.find?_map]
  simp [hf, findRecord]

/-- Another station's record: its stamp is floored when the mark has advanced (R32), and nothing else of it is touched. -/
theorem findRecord_others {r : Roster} (h : r.isOpen = true) (m : Message) (now : Nat) {n : Nat}
    (hn : n ≠ m.station) :
    findRecord (deliverToRoster m now r).records n = (findRecord r.records n).map fun y => { y with
      stamp := if (deliverToRoster m now r).mark = r.mark then y.stamp
        else floored (deliverToRoster m now r).mark y.stamp } := by
  obtain ⟨hstation, -, -⟩ := deliveredRecord_heard m now r
  have hput := findRecord_putRecord_other (offerStamp (offeredStamp m.body) r).records (deliveredRecord m now r) n
    (by rwa [hstation])
  simp only [deliverToRoster_open h, hput]
  by_cases ha : Advances m r
  · rw [offerStamp_advances ha]
    simp only [ha.mark_ne, if_false]
    exact findRecord_map (f := fun x => { x with stamp := floored (offeredStamp m.body) x.stamp }) (fun _ => rfl) n
  · rw [offerStamp_stays ha]
    simp

/-! ### The sender's record by the message's kind (R23 to R26) -/

theorem deliveredRecord_committed (m : Message) (now : Nat) (r : Roster) :
    (deliveredRecord m now r).committed = m.body.draw := by
  unfold deliveredRecord afterMessage
  cases hb : m.body with
  | release x =>
    simp only [afterRelease]
    split
    · rename_i h0
      exact h0.symm
    · rfl
  | claim c => rfl
  | presence p => rfl

theorem deliveredRecord_claim {m : Message} {c : Claim} (h : m.body = .claim c) (now : Nat) (r : Roster) :
    (deliveredRecord m now r).cls = c.cls ∧
      (deliveredRecord m now r).stamp = floored (offerStamp (offeredStamp m.body) r).mark c.stamp ∧
      (deliveredRecord m now r).dmax = c.dmax ∧ (deliveredRecord m now r).demand = none := by
  simp only [deliveredRecord, afterMessage, h]
  exact ⟨rfl, rfl, rfl, rfl⟩

/-- A RELEASE to 0 clears class and stamp (R24). -/
theorem deliveredRecord_release_zero {m : Message} {x : Release} (h : m.body = .release x) (h0 : x.draw = 0)
    (now : Nat) (r : Roster) : (deliveredRecord m now r).cls = 0 ∧ (deliveredRecord m now r).stamp = 0 := by
  simp only [deliveredRecord, afterMessage, h, afterRelease, h0, if_true, offeredStamp, floored_zero, and_self]

/-- A RELEASE to a draw carries its stamp, and leaves a class that stood, or infers one (R24, R26). -/
theorem deliveredRecord_release {m : Message} {x : Release} (h : m.body = .release x) (h0 : x.draw ≠ 0)
    (now : Nat) (r : Roster) :
    (deliveredRecord m now r).stamp = floored (offerStamp (offeredStamp m.body) r).mark x.stamp ∧
      (∀ y, findRecord r.records m.station = some y → y.cls ≠ 0 → (deliveredRecord m now r).cls = y.cls) ∧
      (∀ y, findRecord r.records m.station = some y → y.cls = 0 →
        (deliveredRecord m now r).cls = inferredClass y.summary) ∧
      (findRecord r.records m.station = none → (deliveredRecord m now r).cls = 2) := by
  simp only [deliveredRecord, afterMessage, h, afterRelease, h0, if_false, offeredStamp]
  refine ⟨trivial, fun y hy hc => ?_, fun y hy hc => ?_, fun hnone => ?_⟩
  · rw [hy]
    exact if_neg hc
  · rw [hy]
    exact if_pos hc
  · rw [hnone]
    rfl

/-- A PRESENCE gives every field of the standing; the class stands while the draw does (R25, R26). -/
theorem deliveredRecord_presence {m : Message} {p : Presence} (h : m.body = .presence p) (now : Nat) (r : Roster) :
    (deliveredRecord m now r).summary = some p.summary ∧
      (deliveredRecord m now r).serviceSelected = p.serviceSelected ∧
      (deliveredRecord m now r).lockout = p.lockout ∧ (deliveredRecord m now r).shedPending = p.shedPending ∧
      (deliveredRecord m now r).dmax = p.dmax ∧ (deliveredRecord m now r).gmax = p.gmax ∧
      (deliveredRecord m now r).stamp = floored (offerStamp (offeredStamp m.body) r).mark p.stamp ∧
      (deliveredRecord m now r).demand = p.demand ∧
      (∀ y, findRecord r.records m.station = some y → y.committed = p.committed →
        (deliveredRecord m now r).cls = y.cls) ∧
      ((∀ y, findRecord r.records m.station = some y → y.committed ≠ p.committed) →
        (deliveredRecord m now r).cls = if p.committed = 0 then 0 else inferredClass (some p.summary)) := by
  have he : deliveredRecord m now r =
      { afterPresence (findRecord r.records m.station).isSome
          ((findRecord r.records m.station).getD { station := m.station, heard := now }) p now with
        stamp := floored (offerStamp (offeredStamp m.body) r).mark p.stamp } := by
    simp only [deliveredRecord, afterMessage, h, offeredStamp]
  rw [he]
  refine ⟨rfl, rfl, rfl, rfl, rfl, rfl, rfl, rfl, fun y hy hc => ?_, fun hother => ?_⟩
  · simp [afterPresence, hy, hc]
  · cases hy : findRecord r.records m.station with
    | none => simp [afterPresence]
    | some y => simp [afterPresence, hother y hy]

theorem inferredClass_table (st : SeqState) : inferredClass none = 2 ∧ inferredClass (some st) =
    if st = .parked ∨ st = .serviceWait ∨ st = .serviceRun ∨ st = .serviceIdle ∨ st = .shedPending then 5 else 2 := by
  refine ⟨rfl, ?_⟩
  cases st <;> rfl

/-! ### Observation (R97, R177, R178) -/

theorem octet_getLsbD (n k : Nat) : (octet n).getLsbD k = (decide (k < 8) && n.testBit k) := by
  simp [octet, BitVec.getLsbD_ofNat]

/-- A filter takes an entry exactly when the entry's message matches it (R177). -/
theorem accepts_iff (f : ObservationFilter) (m : Message) (own : Bool) :
    f.accepts (observationOf m own) = true ↔ Matches f m := by
  have hkind : (observationOf m own).kind.setBit = match m.body with
      | .release _ => 0
      | .claim _ => 1
      | .presence _ => 2 := by
    rcases hb : m.body with x | c | p <;> simp only [observationOf, hb] <;> rfl
  have hbits : (f.care &&& (f.pattern ^^^ octet m.station)) = 0 ↔
      ∀ k, k < 8 → f.care.getLsbD k = true → m.station.testBit k = f.pattern.getLsbD k := by
    constructor
    · intro h k hk hc
      have hz : (f.care &&& (f.pattern ^^^ octet m.station)).getLsbD k = false := by rw [h]; exact BitVec.getLsbD_zero
      simp only [BitVec.getLsbD_and, BitVec.getLsbD_xor, octet_getLsbD, hc, hk, decide_true, Bool.true_and] at hz
      have heq : f.pattern.getLsbD k = m.station.testBit k := by simpa using hz
      exact heq.symm
    · intro h
      refine BitVec.eq_of_getLsbD_eq fun k hk => ?_
      simp only [BitVec.getLsbD_and, BitVec.getLsbD_xor, octet_getLsbD, hk, decide_true, Bool.true_and]
      cases hc : f.care.getLsbD k
      · simp
      · rw [h k hk hc]
        simp
  rw [ObservationFilter.accepts, Matches, hkind, Bool.and_eq_true, beq_iff_eq]
  exact and_congr_right fun _ => hbits

theorem observationOf_entry (m : Message) (own : Bool) : observationOf m own = entryOf m own := by
  obtain ⟨station, body⟩ := m
  cases body with
  | release x =>
    have htag : (Body.release x).tag = BitVec.ofNat 8 (16 * x.reason.code + x.tripId.val) := by
      rw [Body.tag, octet, mul_comm]
    simp only [observationOf, htag]
    rfl
  | claim c =>
    have hkind : c.kind.bit * 128 = if c.kind = .wake then 128 else 0 := by cases c.kind <;> rfl
    have htag : (Body.claim c).tag =
        BitVec.ofNat 8 ((if c.kind = .wake then 128 else 0) + 16 * c.speed.code + c.tripId.val) := by
      rw [Body.tag, octet, hkind, mul_comm 16]
    simp only [observationOf, htag]
    rfl
  | presence p => rfl

/-- The offer of a message to the filters (R177, R178). -/
theorem offerObservation_observed (m : Message) (own : Bool) (s : State) :
    Observed s (offerObservation (observationOf m own) s) m own := by
  have htaken : s.link.accept.accepts (observationOf m own) = true ∧
      s.link.reject.accepts (observationOf m own) = false ↔ Matches s.link.accept m ∧ ¬Matches s.link.reject m := by
    rw [accepts_iff, ← Bool.not_eq_true, accepts_iff]
  refine ⟨by simp, by simp, fun haccept hreject => ?_, fun hnot => ?_⟩
  · obtain ⟨ha, hr⟩ := htaken.mpr ⟨haccept, hreject⟩
    have hkept :
        (s.link.accept.accepts (observationOf m own) && !s.link.reject.accepts (observationOf m own)) = true := by
      rw [ha, hr]
      rfl
    rw [offerObservation, if_pos hkept, observationOf_entry]
    refine ⟨fun hroom => ?_, fun hfull => ?_⟩
    · rw [if_pos (by exact hroom)]
      exact ⟨rfl, rfl, rfl⟩
    · rw [if_neg (by exact not_lt.mpr hfull)]
      split
      · rename_i ho
        exact ⟨rfl, ho, fun hn => by rw [ho] at hn; cases hn⟩
      · exact ⟨rfl, rfl, fun _ => rfl⟩
  · have hlost :
        ¬(s.link.accept.accepts (observationOf m own) && !s.link.reject.accepts (observationOf m own)) = true := by
      simp only [Bool.and_eq_true, Bool.not_eq_true', htaken]
      tauto
    rw [offerObservation, if_neg hlost]
    exact ⟨rfl, rfl⟩

end Sys2Proof.Machine
end

section
/-!
What follows a roster change in the same instant and leaves its work standing: the start noted, the filters, the reference point
(R73, R97, R100), by the fields that each of them keeps.
-/

namespace Sys2Proof.Machine

/-! ### Kept whatever the evaluation decides -/

/-- The shed hold and the shed view are kept, and SATURATE and ATTENTION stand where they stood. -/
structure ShedKept (s t : State) : Prop where
  shedHold : t.seq.shedHold = s.seq.shedHold
  shedView : t.adm.shedView = s.adm.shedView
  saturate : s.adm.conditions.saturate = true → t.adm.conditions.saturate = true
  attention : s.link.attention = true → t.link.attention = true

theorem ShedKept.refl (s : State) : ShedKept s s := ⟨rfl, rfl, id, id⟩

theorem ShedKept.trans {s t u : State} (h : ShedKept s t) (h' : ShedKept t u) : ShedKept s u :=
  ⟨h'.shedHold.trans h.shedHold, h'.shedView.trans h.shedView, h'.saturate ∘ h.saturate, h'.attention ∘ h.attention⟩

theorem AttemptLost.shedKept {s t : State} (h : AttemptLost s t) : ShedKept s t := by
  have hattention := h.attention
  rw [h.frame] at hattention ⊢
  exact ⟨rfl, rfl, id, hattention⟩

theorem OnlyRaised.shedKept {s t : State} (h : OnlyRaised s t) : ShedKept s t := by
  obtain ⟨hframe, hattention, hsaturate⟩ := h
  exact ⟨by rw [hframe], by rw [hframe], hsaturate, hattention⟩

theorem abandonAttempt_sending {s : State} {k : MessageKind} (h : s.con.attempt.isSending k = true) :
    abandonAttempt s = s := by
  unfold abandonAttempt
  split
  · rename_i b hb
    rw [hb] at h
    cases h
  · rfl

theorem restartSettle_stopped {s : State} (h : s.supply.settle = .stopped) : restartSettle s = s := by
  simp only [restartSettle, h]

theorem restartSettle_restarts {s : State} (h : s.supply.settle ≠ .stopped) :
    restartSettle s = { s with supply := { s.supply with settle := .running s.now } } := by
  unfold restartSettle
  split
  · exact absurd ‹_› h
  · rfl

/-- The supply monitor after a message: a start restarts a settle timer that is not STOPPED (R73). -/
def startNoted (b : Body) (s : State) : SupplyMonitor :=
  match b with
  | .claim c => if 0 < c.start then (restartSettle s).supply else s.supply
  | _ => s.supply

/-- A start noted writes the supply monitor, and may abandon a WAITING attempt (R73, R111). -/
theorem noteStart_lost (b : Body) (s : State) : AttemptLost { s with supply := startNoted b s } (noteStart b s) ∧
    (s.con.attempt.isSending .claim = true → noteStart b s = { s with supply := startNoted b s }) := by
  cases b with
  | release r => exact ⟨.refl s, fun _ => rfl⟩
  | presence p => exact ⟨.refl s, fun _ => rfl⟩
  | claim c =>
    simp only [noteStart, startNoted]
    split
    · have hs : restartSettle s = { s with supply := (restartSettle s).supply } := by
        unfold restartSettle
        split <;> rfl
      rw [← hs, noticeAfter]
      split
      · exact ⟨abandonAttempt_lost _, fun ha => abandonAttempt_sending (by rw [hs]; exact ha)⟩
      · exact ⟨.refl _, fun _ => rfl⟩
    · exact ⟨.refl s, fun _ => rfl⟩

theorem noteStart_supply (b : Body) (s : State) : (noteStart b s).supply = startNoted b s := by
  rw [(noteStart_lost b s).1.frame]

theorem startNoted_start {c : Claim} {s : State} (hc : 0 < c.start) (hs : s.supply.settle ≠ .stopped) :
    startNoted (.claim c) s = { s.supply with settle := .running s.now } := by
  rw [startNoted, if_pos hc, restartSettle_restarts hs]

theorem startNoted_other {b : Body} {s : State}
    (h : ¬((∃ c, b = .claim c ∧ 0 < c.start) ∧ s.supply.settle ≠ .stopped)) : startNoted b s = s.supply := by
  cases b with
  | release r => rfl
  | presence p => rfl
  | claim c =>
    rw [startNoted]
    split
    · rename_i hc
      rw [restartSettle_stopped (not_not.mp fun hs => h ⟨⟨c, rfl, hc⟩, hs⟩)]
    · rfl

theorem noteStart_shedKept (b : Body) (s : State) : ShedKept s (noteStart b s) := by
  obtain ⟨hhold, hview, hsaturate, hattention⟩ := (noteStart_lost b s).1.shedKept
  exact ⟨hhold, hview, hsaturate, hattention⟩

theorem offerObservation_shedKept (o : Observation) (s : State) : ShedKept s (offerObservation o s) := by
  rcases offerObservation_cases o s with he | ⟨-, he⟩ | he <;> rw [he]
  · exact .refl s
  · exact ⟨rfl, rfl, id, fun _ => rfl⟩
  · exact ⟨rfl, rfl, id, fun _ => rfl⟩

theorem goTo_shedHold (st : SeqState) (s : State) : (goTo st s).seq.shedHold = s.seq.shedHold := by
  unfold goTo
  split <;> rfl

theorem goTo_attention_kept (st : SeqState) {s : State} (h : s.link.attention = true) :
    (goTo st s).link.attention = true := by
  unfold goTo
  split
  · exact h
  · rfl

theorem markPresence_roundTimer (s : State) : (markPresence s).con.roundTimer = s.con.roundTimer := by
  unfold markPresence
  split <;> rfl

theorem returnToOrigin_kept (o : Origin) (s : State) :
    ShedKept s (returnToOrigin o s) ∧ (returnToOrigin o s).con.roundTimer = s.con.roundTimer := by
  refine ⟨⟨?_, by simp, by simp, fun h => ?_⟩, ?_⟩
  · cases o <;> simp [returnToOrigin, enterEvacWait, enterServiceIdle, enterParked, goTo_shedHold]
  · cases o <;> simp [returnToOrigin, enterEvacWait, enterServiceIdle, enterParked, goTo_attention_kept _ h]
  · cases o <;> simp [returnToOrigin, enterEvacWait, enterServiceIdle, enterParked, markPresence_roundTimer]

/-- The end of a trip that exceeds leaves the shed hold, the round timer and the evaluation's outcome (R54). -/
theorem endExceeded_kept {x : Trip} {s : State} (hx : s.seq.trip.isSome = true) :
    ShedKept s (endExceeded x s) ∧ (endExceeded x s).con.roundTimer = s.con.roundTimer ∧
      (endExceeded x s).adm.view.outcome = s.adm.view.outcome := by
  obtain ⟨y, hy⟩ := Option.isSome_iff_exists.mp hx
  have hend := endTrip_some (s := { s with
    con := { s.con with claimSlot := none }
    adm := { s.adm with view := { s.adm.view with exceeded := true } }
    link := { s.link with reason := .exceedsCapacity, detail := x.id.val } }) hy
  have hkept (u : State) := returnToOrigin_kept x.origin u
  simp only [endExceeded, hend, returnToOrigin_keeps, (hkept _).2]
  refine ⟨ShedKept.trans ?_ (hkept _).1, trivial, trivial⟩
  exact ⟨rfl, rfl, id, fun _ => rfl⟩

/-! ### The evaluation (R46) -/

/-- A record that an evaluation may be made for (R46). -/
def Trip.live (x : Trip) : Prop := x.phase = .pending ∨ x.phase = .armed

theorem evaluable_live {s : State} {x : Trip} (h : evaluable s x = true) : x.live := by
  simp only [evaluable, Bool.and_eq_true, Bool.or_eq_true, beq_iff_eq] at h
  obtain ⟨⟨hp | ⟨ha, -⟩, -⟩, -⟩ := h
  · exact .inl hp
  · exact .inr ha

/-- An evaluation that exceeds says so in the view (R47, R54). -/
theorem evaluateTrip_exceeds {s : State} {x : Trip} (hx : s.seq.trip = some x)
    (h : (decideTrip s x).outcome = .exceeds) :
    ShedKept s (evaluateTrip x s) ∧ (evaluateTrip x s).con.roundTimer = s.con.roundTimer ∧
      (evaluateTrip x s).adm.view.outcome = .exceeds := by
  obtain ⟨hframe, hattention, hsaturate⟩ := raiseAtEvaluation_onlyRaised s
  simp only [evaluateTrip, if_pos h]
  generalize raiseAtEvaluation s = u at hframe hattention hsaturate
  have hseq : u.seq = s.seq := by rw [hframe]
  obtain ⟨hkept, hround, houtcome⟩ := endExceeded_kept (x := x) (s := { u with adm := { u.adm with
      view := viewAfter s (decideTrip s x)
      patience := patienceAfter s.adm.patience (decideTrip s x).outcome x.cls s.now } }) (by simp [hseq, hx])
  refine ⟨ShedKept.trans ?_ hkept, hround.trans ?_, houtcome.trans h⟩
  · exact ⟨by simp only [hseq], by simp only; rw [hframe], hsaturate, hattention⟩
  · rw [hframe]

/-- An evaluation that does not exceed writes the admission unit and ATTENTION alone (R47, R57). -/
theorem evaluateTrip_decided {s : State} {x : Trip} (h : (decideTrip s x).outcome ≠ .exceeds) :
    ShedKept s (evaluateTrip x s) ∧ (evaluateTrip x s).con = s.con ∧ (evaluateTrip x s).seq = s.seq := by
  have hr := evaluateTrip_evaluated h
  obtain ⟨hhold, hview, hsaturate, hattention⟩ := hr.shedKept
  refine ⟨⟨hhold, hview, hsaturate, hattention⟩, ?_, ?_⟩ <;> rw [hr.frame] <;> rfl

theorem evaluate_kept (s : State) : ShedKept s (evaluate s) ∧ (evaluate s).con.roundTimer = s.con.roundTimer := by
  rcases evaluate_cases s with he | ⟨x, hx, -, he⟩ <;> rw [he]
  · exact ⟨.refl s, rfl⟩
  by_cases h : (decideTrip s x).outcome = .exceeds
  · obtain ⟨hkept, hround, -⟩ := evaluateTrip_exceeds hx h
    exact ⟨hkept, hround⟩
  · obtain ⟨hkept, hcon, -⟩ := evaluateTrip_decided h
    exact ⟨hkept, by rw [hcon]⟩

/-- Where the view tells no EXCEEDS for a live record, the evaluation left the sequencer and the contention unit. -/
theorem evaluate_spares {s : State}
    (h : ∀ x, s.seq.trip = some x → x.live → (evaluate s).adm.view.outcome ≠ .exceeds) :
    (evaluate s).seq = s.seq ∧ (evaluate s).con = s.con := by
  rcases evaluate_cases s with he | ⟨x, hx, hlive, he⟩
  · rw [he]
    exact ⟨rfl, rfl⟩
  · have hne := h x hx (evaluable_live hlive)
    rw [he] at hne ⊢
    by_cases hd : (decideTrip s x).outcome = .exceeds
    · obtain ⟨-, -, hexceeds⟩ := evaluateTrip_exceeds hx hd
      exact absurd hexceeds hne
    · obtain ⟨-, hcon, hseq⟩ := evaluateTrip_decided hd
      exact ⟨hseq, hcon⟩

theorem admittedOffer_live {s : State} {o : Option SpeedStep × StepFigures} (h : admittedOffer s = some o) :
    ∀ x, s.seq.trip = some x → x.live := by
  intro x hx
  simp only [admittedOffer, hx] at h
  split at h
  · exact evaluable_live ‹_›
  · cases h

/-! ### The choice (R107) -/

theorem choosePresence_due {s : State} (instant : Nat) (h : s.con.presenceDue = true) :
    choosePresence instant s =
      beginAttempt instant (.presence (presenceOf s)) { s with con := { s.con with remarked := false } } := by
  simp [choosePresence, h]

theorem chooseSlot_kept (instant : Nat) (offer : Option (Option SpeedStep × StepFigures)) (s : State) :
    ShedKept s (chooseSlot instant offer s) ∧ (chooseSlot instant offer s).con.roundTimer = s.con.roundTimer := by
  rcases chooseSlot_cases instant offer s with he | ⟨-, ⟨r, -, he⟩ | ⟨-, p, o, x, -, -, -, he⟩ | ⟨-, hdue, he⟩⟩
  · rw [he]
    exact ⟨.refl s, rfl⟩
  · rw [he]
    exact ⟨⟨rfl, rfl, id, id⟩, rfl⟩
  · rw [he]
    exact ⟨⟨rfl, rfl, id, fun _ => rfl⟩, rfl⟩
  · rw [he, choosePresence_due instant hdue]
    exact ⟨⟨rfl, rfl, id, id⟩, rfl⟩

/-- A reference point leaves the shed's work, and restarts the round timer from its instant (R100). -/
theorem referencePoint_kept (instant : Nat) (s : State) :
    ShedKept s (referencePoint instant s) ∧ (referencePoint instant s).con.roundTimer = .running instant := by
  obtain ⟨heval, hround⟩ := evaluate_kept (atReference instant s)
  obtain ⟨hchoose, hround'⟩ :=
    chooseSlot_kept instant (admittedOffer (atReference instant s)) (evaluate (atReference instant s))
  rw [referencePoint_eq]
  refine ⟨ShedKept.trans ?_ (heval.trans hchoose), hround'.trans hround⟩
  exact ⟨rfl, rfl, id, id⟩

end Sys2Proof.Machine
end

section
/-!
A message of another station heard (R20, R28, R96): the shed's work through the rest of the instant when no evaluation ends the
trip, the end of the activity in its steps, and from these O11.
-/

namespace Sys2Proof.Machine

/-! ### Kept where the evaluation does not end the trip -/

/-- Of the sequencer only a live record is written, of the outbound messages none that is posted, due or being sent. -/
structure TripWritten (s t : State) : Prop where
  now : t.now = s.now
  seq : t.seq = { s.seq with trip := t.seq.trip }
  tripId : t.seq.trip.map Trip.id = s.seq.trip.map Trip.id
  kept : (∀ x, s.seq.trip = some x → ¬x.live) → t.seq.trip = s.seq.trip
  releaseSlot : t.con.releaseSlot = s.con.releaseSlot
  claimSlot : t.con.claimSlot = s.con.claimSlot
  presenceDue : t.con.presenceDue = s.con.presenceDue
  attention : s.link.attention = true → t.link.attention = true
  sending : s.con.attempt.isSending .claim = true →
    t.seq.trip = s.seq.trip ∧ t.con = { s.con with roundTimer := t.con.roundTimer }

theorem TripWritten.trans {s t u : State} (h : TripWritten s t) (h' : TripWritten t u) : TripWritten s u where
  now := h'.now.trans h.now
  seq := by rw [h'.seq, h.seq]
  tripId := h'.tripId.trans h.tripId
  kept hs := by
    have ht := h.kept hs
    rw [h'.kept (by rwa [ht]), ht]
  releaseSlot := h'.releaseSlot.trans h.releaseSlot
  claimSlot := h'.claimSlot.trans h.claimSlot
  presenceDue := h'.presenceDue.trans h.presenceDue
  attention := h'.attention ∘ h.attention
  sending hs := by
    obtain ⟨ht, hc⟩ := h.sending hs
    obtain ⟨hu, hd⟩ := h'.sending (by rw [hc]; exact hs)
    refine ⟨hu.trans ht, ?_⟩
    rw [hd, hc]

/-- Where sequencer and contention unit are kept, but for the round timer. -/
theorem TripWritten.of_kept {s t : State} (hnow : t.now = s.now) (hseq : t.seq = s.seq)
    (hcon : t.con = { s.con with roundTimer := t.con.roundTimer })
    (hattention : s.link.attention = true → t.link.attention = true) : TripWritten s t where
  now := hnow
  seq := by rw [hseq]
  tripId := by rw [hseq]
  kept _ := by rw [hseq]
  releaseSlot := by rw [hcon]
  claimSlot := by rw [hcon]
  presenceDue := by rw [hcon]
  attention := hattention
  sending _ := ⟨by rw [hseq], hcon⟩

/-- An attempt being sent is not abandoned, so only a waiting one is lost. -/
theorem AttemptLost.tripWritten {s t : State} (h : AttemptLost s t)
    (hsending : s.con.attempt.isSending .claim = true → t = s) : TripWritten s t := by
  obtain ⟨hrelease, hclaim, hdue⟩ := h.slots
  refine ⟨by rw [h.frame], by rw [h.frame], h.tripId, fun hs => ?_, hrelease, hclaim, hdue, h.attention, fun hs => ?_⟩
  · rcases h.trip with ht | ⟨x, hx, ha, -⟩
    · exact ht
    · exact absurd (.inr ha) (hs x hx)
  · rw [hsending hs]
    exact ⟨rfl, rfl⟩

theorem noteStart_tripWritten (b : Body) (s : State) : TripWritten s (noteStart b s) := by
  obtain ⟨hlost, hsending⟩ := noteStart_lost b s
  exact TripWritten.trans (t := { s with supply := startNoted b s }) (.of_kept rfl rfl rfl id)
    (hlost.tripWritten hsending)

theorem offerObservation_tripWritten (o : Observation) (s : State) : TripWritten s (offerObservation o s) :=
  .of_kept (by simp) (by simp) (by simp) (offerObservation_shedKept o s).attention

/-- The choice at a reference point arms a live record (R107, R135). -/
theorem chooseSlot_tripWritten {instant : Nat} {offer : Option (Option SpeedStep × StepFigures)} {s : State}
    (hlive : ∀ o, offer = some o → ∀ x, s.seq.trip = some x → x.live) :
    TripWritten s (chooseSlot instant offer s) := by
  have hidle (hm : mayChoose s = true) : s.con.attempt.isSending .claim ≠ true := by
    obtain ⟨-, -, -, hnone⟩ := (mayChoose_iff s).mp hm
    rw [hnone]
    exact Bool.false_ne_true
  rcases chooseSlot_cases instant offer s with he | ⟨hm, ⟨r, -, he⟩ | ⟨-, p, o, x, -, ho, hx, he⟩ | ⟨-, hdue, he⟩⟩
  · rw [he]
    exact .of_kept rfl rfl rfl id
  · rw [he]
    exact ⟨rfl, rfl, rfl, fun _ => rfl, rfl, rfl, rfl, id, fun h => absurd h (hidle hm)⟩
  · rw [he]
    refine ⟨rfl, rfl, by rw [hx]; rfl, fun hn => absurd (hlive o ho x hx) (hn x hx), rfl, rfl, rfl, fun _ => rfl,
      fun h => absurd h (hidle hm)⟩
  · rw [he, choosePresence_due instant hdue]
    exact ⟨rfl, rfl, rfl, fun _ => rfl, rfl, rfl, rfl, id, fun h => absurd h (hidle hm)⟩

/-- A reference point at which no evaluation ends the trip. -/
theorem referencePoint_tripWritten {instant : Nat} {s : State}
    (h : ∀ x, s.seq.trip = some x → x.live → (referencePoint instant s).adm.view.outcome ≠ .exceeds) :
    TripWritten s (referencePoint instant s) := by
  obtain ⟨hseq, hcon⟩ := evaluate_spares (s := atReference instant s) fun x hx hlive => by
    have hne := h x hx hlive
    simpa [referencePoint_eq] using hne
  have heval : TripWritten s (evaluate (atReference instant s)) :=
    .of_kept (by simp [atReference]) hseq (by rw [hcon]; rfl) (evaluate_kept (atReference instant s)).1.attention
  refine heval.trans (chooseSlot_tripWritten fun o ho x hx => ?_)
  rw [hseq] at hx
  exact admittedOffer_live ho x hx

/-- The shed's work on the own car stands through what writes only a live record (R154 to R157). -/
theorem ShedActed.tripWritten {s t u : State} (h : ShedActed s t) (hw : TripWritten t u) : ShedActed s u := by
  obtain ⟨hspared, hshed⟩ := h
  have hstate : u.seq.state = t.seq.state := by rw [hw.seq]
  have hidle : u.seq.idleTimer = t.seq.idleTimer := by rw [hw.seq]
  have haging : u.seq.agingTimer = t.seq.agingTimer := by rw [hw.seq]
  have hhold : u.seq.shedHold = t.seq.shedHold := by rw [hw.seq]
  have hphase (p : TripPhase) (hp : p ≠ .pending ∧ p ≠ .armed) (hin : tripIn p t = true) : u.seq.trip = t.seq.trip := by
    refine hw.kept fun x hx hlive => ?_
    rw [tripIn, hx] at hin
    rcases hlive with hl | hl <;> simp [hl, hp.1.symm, hp.2.symm] at hin
  refine ⟨fun hown => ?_, fun hown => ?_⟩
  · obtain ⟨hseq, hrelease, hclaim⟩ := hspared hown
    exact ⟨by rw [hw.seq, hseq], hw.releaseSlot.trans hrelease, hw.claimSlot.trans hclaim⟩
  obtain ⟨hserviceIdle, hwait, hsend, hrun, hassess, helse⟩ := hshed hown
  rw [hstate, hidle, haging, hhold, hw.releaseSlot, hw.claimSlot, hw.presenceDue, hw.now]
  refine ⟨fun hs => ?_, fun hs ha => ?_, fun hs ha => ?_, fun hs => ?_, fun hs => ?_, fun hs => ?_⟩
  · obtain ⟨h1, h2, h3, h4, h5, h6, h7⟩ := hserviceIdle hs
    refine ⟨h1, h2, h3, h4, h5, hw.attention h6, fun hin => ?_⟩
    rw [tripIn, hphase .ending (by decide) (h7 hin)]
    exact h7 hin
  · obtain ⟨h1, h2, h3, h4, h5, h6, h7, h8⟩ := hwait hs ha
    have hnone : u.seq.trip = none := by rw [hw.kept (by simp [h2]), h2]
    exact ⟨h1, hnone, h3, h4, h5, h6, h7, hw.attention h8⟩
  · obtain ⟨h1, h2⟩ := hsend hs ha
    obtain ⟨htrip, hcon⟩ := hw.sending (by rw [h2]; exact ha)
    refine ⟨?_, ?_⟩
    · rw [hw.seq, htrip, h1]
    · rw [hcon, h2]
  · obtain ⟨h1, h2, h3, h4, h5⟩ := hrun hs
    refine ⟨by rw [hw.seq, h1], fun hin => ?_, h3, h4, hw.attention h5⟩
    have ht := h2 hin
    rw [hphase .running (by decide) (by rw [tripIn, ht]; exact hin), ht]
  · obtain ⟨h1, h2, h3, h4, h5⟩ := hassess hs
    exact ⟨by rw [hw.seq, h1], hw.tripId.trans h2, h3, h4, h5⟩
  · obtain ⟨h1, h2⟩ := helse hs
    exact ⟨by rw [hw.seq, h1], h2⟩

/-! ### Whose record is live -/

/-- A live record was one before. -/
def LiveBefore (s t : State) : Prop := ∀ x, t.seq.trip = some x → x.live → ∃ y, s.seq.trip = some y ∧ y.live

theorem LiveBefore.of_trip {s t : State} (h : t.seq.trip = s.seq.trip) : LiveBefore s t :=
  fun x hx hlive => ⟨x, h ▸ hx, hlive⟩

theorem AttemptLost.liveBefore {s t : State} (h : AttemptLost s t) : LiveBefore s t := by
  rcases h.trip with ht | ⟨y, hy, ha, -⟩
  · exact .of_trip ht
  · exact fun _ _ _ => ⟨y, hy, .inr ha⟩

/-- No shed makes a record live (R154, R155). -/
theorem shedCar_liveBefore (s : State) : LiveBefore s (shedCar s) := by
  by_cases hidle : s.seq.state = .serviceIdle
  · obtain ⟨u, hu, htrip⟩ := (enterParked_postShed (s := { s with seq := { s.seq with idleTimer := .stopped } })
      (by simp only [hidle]; rfl) (by simp [hidle])).trip
    rw [shedCar_serviceIdle hidle]
    intro x hx
    exact hu.liveBefore x (htrip.symm.trans hx)
  by_cases hwait : s.seq.state = .serviceWait
  · cases ha : s.con.attempt.isSending .claim
    · obtain ⟨hstate, hnone, -, -, -, hid⟩ := endTrip_withdrawClaim ha
      obtain ⟨u, hu, htrip⟩ := (enterParked_postShed (s := endTrip (withdrawClaim s)) (by rw [hstate, hwait]; rfl)
        (by rw [hstate, hwait]; decide)).trip
      rw [shedCar_serviceWait hwait ha]
      intro x hx
      rw [← hid, htrip, hu.trip_none hnone] at hx
      cases hx
    · rw [shedCar_serviceWait_sending hwait ha]
      intro x hx hlive
      obtain ⟨y, hy, rfl⟩ := Option.map_eq_some_iff.mp hx
      exact ⟨y, hy, hlive⟩
  by_cases hrun : s.seq.state = .serviceRun
  · rw [shedCar_serviceRun hrun]
    exact .of_trip (by simp)
  by_cases hevac : s.seq.state = .assess ∨ s.seq.state = .evacWait
  · obtain ⟨u, hu, hpost⟩ := postShed_eq (s := s) (by rcases hevac with h | h <;> rw [h] <;> rfl) s.seq.lastTripId
    rw [shedCar_waiting hevac, hpost]
    exact hu.liveBefore
  · rw [shedCar_elsewhere ⟨hidle, hwait, hrun, fun h => hevac (.inl h), fun h => hevac (.inr h)⟩]
    exact .of_trip rfl

theorem shedTest_liveBefore (s : State) : LiveBefore s (shedTest s) := by
  cases hd : s.seq.state.driving
  · rw [shedTest_silent s hd]
    exact .of_trip rfl
  · obtain ⟨v, hv, -, hshed, hleave⟩ := shedTest_driving hd
    have hseq : v.seq = s.seq := by rw [hv.frame]
    by_cases hown : ShedsOwn s
    · rw [hshed hown]
      intro x hx hlive
      obtain ⟨y, hy, hylive⟩ := shedCar_liveBefore v x hx hlive
      exact ⟨y, hseq ▸ hy, hylive⟩
    · rw [hleave hown]
      exact .of_trip (by rw [hseq])

/-! ### The end of an activity of another station -/

/-- The instant of recognition, with the receiver QUIET (R82). -/
def activityEnded (reference : Nat) (u : LineUnit) (s : State) : State :=
  { passTo (reference + Config.baseGap) s with line := u.quiet }

/-- The roster that has taken the message at that instant (R20). -/
def rosterHeard (m : Message) (reference : Nat) (s : State) : Roster :=
  deliverToRoster m (max s.now (reference + 120)) s.roster

/-- The state once the roster has taken the message, with what that sets off (R28). -/
def messageTaken (m : Message) (reference : Nat) (u : LineUnit) (s : State) : State :=
  changeRoster (rosterHeard m reference s) (activityEnded reference u s)

/-- All of a valid message of another station: the roster, the start, the filters, the reference point (R96, R100). -/
theorem execEndOfActivity_heard {s : State} {changes : List LineChange} {reference : Nat} {u : LineUnit} {m : Message}
    (hactive : s.line.active = true) (hconfigured : configured s = true) (hidle : s.line.transmitter = none)
    (hend : s.line.recognised changes = some (reference, u)) (hok : judgeActivity u = .ok m)
    (hother : m.station ≠ s.station) :
    execEndOfActivity changes s = .next (referencePoint reference
      (offerObservation (observationOf m false) (noteStart m.body (messageTaken m reference u s)))) := by
  have hquiet : (activityEnded reference u s).line.transmitter = none := by
    obtain ⟨-, htransmitter, -⟩ := LineUnit.recognised_keeps hend
    exact htransmitter.trans hidle
  have hconf : configured (activityEnded reference u s) = true := hconfigured
  have hdeliver : settleActivity u (activityEnded reference u s) = deliverMessage m (activityEnded reference u s) := by
    simp only [settleActivity, hquiet, judgeAndDeliver, hconf, hok]
    rfl
  have hstation : m.station ≠ (activityEnded reference u s).station := hother
  rw [execEndOfActivity, if_pos hactive, hend]
  show Host.Outcome.next (referencePoint reference (settleActivity u (activityEnded reference u s))) = _
  rw [hdeliver, deliverMessage, if_neg hstation]
  rfl

theorem ShedViewed.kept {s t u : State} (h : ShedViewed s t) (hk : ShedKept t u) : ShedViewed s u := by
  obtain ⟨hexcess, hsize, hown, hsaturate⟩ := h
  rw [ShedViewed, hk.shedView]
  exact ⟨hexcess, hsize, hown, hk.saturate ∘ hsaturate⟩

theorem Observed.kept {s s' t t' : State} {m : Message} {own : Bool} (h : Observed s t m own)
    (hs : LinkElse s s') (ht : LinkElse t t') (hattention : t.link.attention = true → t'.link.attention = true) :
    Observed s' t' m own := by
  obtain ⟨ha, hr, hq, ho⟩ := hs
  obtain ⟨ha', hr', hq', ho'⟩ := ht
  obtain ⟨haccept, hreject, htaken, hleft⟩ := h
  rw [Observed, ha, hr, hq, ho, ha', hr', hq', ho']
  refine ⟨haccept, hreject, fun hm hn => ⟨fun hroom => ?_, fun hfull => ?_⟩, hleft⟩
  · obtain ⟨h1, h2, h3⟩ := (htaken hm hn).1 hroom
    exact ⟨h1, h2, hattention h3⟩
  · obtain ⟨h1, h2, h3⟩ := (htaken hm hn).2 hfull
    exact ⟨h1, h2, hattention ∘ h3⟩

/-- The rest of the instant, from the roster's change on. -/
def instantEnded (m : Message) (reference : Nat) (s : State) : State :=
  referencePoint reference (offerObservation (observationOf m false) (noteStart m.body s))

theorem instantEnded_kept (m : Message) (reference : Nat) (s : State) :
    ShedKept s (instantEnded m reference s) ∧ (instantEnded m reference s).con.roundTimer = .running reference := by
  obtain ⟨hkept, hround⟩ :=
    referencePoint_kept reference (offerObservation (observationOf m false) (noteStart m.body s))
  exact ⟨((noteStart_shedKept ..).trans (offerObservation_shedKept ..)).trans hkept, hround⟩

theorem instantEnded_tripWritten {m : Message} {reference : Nat} {s : State}
    (h : (∃ x, s.seq.trip = some x ∧ x.live) → (instantEnded m reference s).adm.view.outcome ≠ .exceeds) :
    TripWritten s (instantEnded m reference s) := by
  have hstart := noteStart_tripWritten m.body s
  refine (hstart.trans (offerObservation_tripWritten (observationOf m false) _)).trans
    (referencePoint_tripWritten fun x hx hlive => h ?_)
  have hx' : (noteStart m.body s).seq.trip = some x := by simpa using hx
  exact (noteStart_lost m.body s).1.liveBefore x hx' hlive

theorem instantEnded_observed (m : Message) (reference : Nat) (s : State) :
    Observed s (instantEnded m reference s) m false := by
  obtain ⟨hkept, -⟩ :=
    referencePoint_kept reference (offerObservation (observationOf m false) (noteStart m.body s))
  refine (offerObservation_observed m false (noteStart m.body s)).kept ?_ ?_ hkept.attention
  · simp [LinkElse]
  · simp [LinkElse, instantEnded]

theorem instantEnded_supply (m : Message) (reference : Nat) (s : State) :
    (instantEnded m reference s).supply = startNoted m.body s := by
  simp [instantEnded, noteStart_supply]

/-! ### The roster's change and the shed at the end of the instant (R28, R151 to R157) -/

section
variable {s : State} {m : Message} {reference : Nat} {u : LineUnit}

theorem messageTaken_same (h : ¬RosterChange s.roster.records (rosterHeard m reference s).records) :
    messageTaken m reference u s = { activityEnded reference u s with roster := rosterHeard m reference s } :=
  changeRoster_same h

theorem messageTaken_change (h : RosterChange s.roster.records (rosterHeard m reference s).records) :
    messageTaken m reference u s =
      shedTest (withRoster (activityEnded reference u s) (rosterHeard m reference s)) :=
  changeRoster_change h

theorem messageTaken_liveBefore : LiveBefore s (messageTaken m reference u s) := by
  by_cases h : RosterChange s.roster.records (rosterHeard m reference s).records
  · rw [messageTaken_change h]
    exact shedTest_liveBefore (withRoster (activityEnded reference u s) (rosterHeard m reference s))
  · rw [messageTaken_same h]
    exact .of_trip rfl

/-- Without a roster change the shed hold stands, and without one or outside the driving states the shed view. -/
theorem messageTaken_shedView
    (h : ¬RosterChange s.roster.records (rosterHeard m reference s).records ∨ s.seq.state.driving = false) :
    (messageTaken m reference u s).adm.shedView = s.adm.shedView := by
  by_cases hc : RosterChange s.roster.records (rosterHeard m reference s).records
  · have hd := h.resolve_left (not_not.mpr hc)
    rw [messageTaken_change hc,
      shedTest_silent (withRoster (activityEnded reference u s) (rosterHeard m reference s)) hd]
    rfl
  · rw [messageTaken_same hc]
    rfl

theorem messageTaken_shedHold_silent (h : RosterChange s.roster.records (rosterHeard m reference s).records)
    (hd : s.seq.state.driving = false) :
    (messageTaken m reference u s).seq.shedHold = (withRoster s (rosterHeard m reference s)).seq.shedHold := by
  rw [messageTaken_change h, shedTest_silent (withRoster (activityEnded reference u s) (rosterHeard m reference s)) hd]
  rfl

/-- The shed test of a driving state on the changed roster (R151). -/
theorem messageTaken_shed (h : RosterChange s.roster.records (rosterHeard m reference s).records)
    (hd : s.seq.state.driving = true) :
    ShedViewed (withRoster s (rosterHeard m reference s)) (messageTaken m reference u s) ∧
      ShedActed (withRoster s (rosterHeard m reference s)) (messageTaken m reference u s) ∧
      (¬ShedsOwn (withRoster s (rosterHeard m reference s)) →
        (messageTaken m reference u s).seq.shedHold = (withRoster s (rosterHeard m reference s)).seq.shedHold) := by
  have hd' : (withRoster (activityEnded reference u s) (rosterHeard m reference s)).seq.state.driving = true := hd
  rw [messageTaken_change h]
  refine ⟨shedTest_viewed hd', shedTest_acted hd', fun hown => ?_⟩
  rw [(shedTest_spared hd' hown).1]
  rfl

end

/-- The frame of the whole instant. -/
theorem instantEnded_frame (s : State) (m : Message) (reference : Nat) (u : LineUnit) :
    (instantEnded m reference (messageTaken m reference u s)).now = max s.now (reference + 120) ∧
      (instantEnded m reference (messageTaken m reference u s)).line = u.quiet ∧
      (instantEnded m reference (messageTaken m reference u s)).roster = rosterHeard m reference s ∧
      (instantEnded m reference (messageTaken m reference u s)).config = s.config ∧
      (instantEnded m reference (messageTaken m reference u s)).pins = s.pins ∧
      (instantEnded m reference (messageTaken m reference u s)).station = s.station := by
  refine ⟨?_, ?_, ?_, ?_, ?_, ?_⟩
  · simp only [instantEnded, messageTaken, referencePoint_keeps, offerObservation_keeps, noteStart_keeps,
      changeRoster_keeps]
    rfl
  all_goals simp [instantEnded, messageTaken, activityEnded]

/-- Settles O11: the roster by the delivery, the shed by its test, both kept to the end of the instant. -/
theorem heardMessageReachesRoster : Obligations.HeardMessageReachesRoster := by
  intro s changes reference u m hactive hconfigured hidle hopen hend hok hother
  obtain ⟨hnow, hline, hroster, hconfig, hpins, hstation⟩ := instantEnded_frame s m reference u
  obtain ⟨hlevel, -⟩ := LineUnit.recognised_keeps hend
  obtain ⟨hkept, hround⟩ := instantEnded_kept m reference (messageTaken m reference u s)
  obtain ⟨-, hfresh, hheard⟩ := deliveredRecord_heard m (max s.now (reference + 120)) s.roster
  have hsupply := instantEnded_supply m reference (messageTaken m reference u s)
  have hsupply0 : (messageTaken m reference u s).supply = s.supply := by simp [messageTaken, activityEnded]
  have hobserved := (instantEnded_observed m reference (messageTaken m reference u s)).kept (s' := s)
    (by simp [LinkElse, messageTaken, activityEnded]) ⟨rfl, rfl, rfl, rfl⟩ id
  have hmark : (rosterHeard m reference s).mark = (offerStamp (offeredStamp m.body) s.roster).mark := by
    rw [rosterHeard, deliverToRoster_open hopen]
  have hopen' : (rosterHeard m reference s).isOpen = true := by
    rw [rosterHeard, deliverToRoster_open hopen]
    exact (offerStamp_isOpen ..).trans hopen
  refine ⟨instantEnded m reference (messageTaken m reference u s),
    deliveredRecord m (max s.now (reference + 120)) s.roster,
    execEndOfActivity_heard hactive hconfigured hidle hend hok hother, hnow, ?_⟩
  rw [hnow, hline, hroster, hkept.shedView, hkept.shedHold, hmark]
  refine ⟨rfl, hlevel, hround, hopen', ?_, findRecord_delivered hopen m _, hfresh, hheard,
    deliveredRecord_committed m _ _, fun c hc => deliveredRecord_claim hc _ _,
    fun r hr => ⟨fun h0 => deliveredRecord_release_zero hr h0 _ _, fun h0 => deliveredRecord_release hr h0 _ _⟩,
    fun p hp => deliveredRecord_presence hp _ _, inferredClass_table, fun n hn => ?_, fun hs => ?_, fun hs => ?_,
    hconfig, hpins, hstation, hobserved, messageTaken_shedView, fun hsame => ?_,
    fun hchange => ⟨fun hd => ?_, fun hd => ?_⟩⟩
  · rw [← hmark]
    exact deliverToRoster_mark hopen m _
  · rw [← hmark]
    exact findRecord_others hopen m _ hn
  · obtain ⟨⟨c, hc, hstart⟩, hsettle⟩ := hs
    have hnow' : (messageTaken m reference u s).now = max s.now (reference + 120) := by
      simp only [messageTaken, changeRoster_keeps]
      rfl
    rw [hsupply, hc, startNoted_start hstart (by rwa [hsupply0]), hsupply0, hnow']
  · rw [hsupply, startNoted_other (by rwa [hsupply0]), hsupply0]
  · rw [messageTaken_same hsame]
    rfl
  · exact messageTaken_shedHold_silent hchange hd
  · obtain ⟨hview, hacted, hhold⟩ := messageTaken_shed (u := u) hchange hd
    refine ⟨hview.kept hkept, hhold, fun hne => hacted.tripWritten (instantEnded_tripWritten ?_)⟩
    rintro ⟨x, hx, hlive⟩
    obtain ⟨y, hy, hylive⟩ := messageTaken_liveBefore x hx hlive
    exact hne y hy hylive

end Sys2Proof.Machine
end

section
/-! SENSE and CLEAR-CONDITIONS taken: the reply, the held reason, the flags lowered, and from these O29. -/

namespace Sys2Proof.Machine

/-! ### SENSE and CLEAR-CONDITIONS (R175, R176) -/

/-- SENSE is taken before a configuration too, and holds no reason of its own (R169, R175). -/
theorem execSense_ready {s : State} (h : linkReady s = true) :
    execSense s = .next (respond (.accepted (senseOctets s)) { s with link := { s.link with receiver := .idle } }) := by
  simp only [execSense, octetsArrive_ready s h]
  rfl

/-- The seven flags lowered and the last line error NONE (R176). -/
def conditionsCleared (s : State) : State :=
  { s with adm := { s.adm with conditions := {} }, line := { s.line with lastError := .none } }

theorem exec_clearConditions {s : State} (h : Taking s) :
    exec .clearConditions s = .next (respond (.accepted [octet s.adm.conditions.octet, octet s.line.lastError.code])
      (conditionsCleared (requestTaken s))) := by
  simp only [exec, execClearConditions, takeRequest_taking h]
  rfl

/-- Settles O29. -/
theorem senseAndClearReplies : Obligations.SenseAndClearReplies :=
  ⟨fun _ h => ⟨_, execSense_ready h, respond_acceptedWith rfl _, rfl, rfl, rfl, ⟨rfl, rfl, rfl, rfl⟩, rfl⟩,
    fun _ h => ⟨_, exec_clearConditions h, respond_acceptedWith rfl _, rfl, rfl, rfl, ⟨rfl, rfl⟩, rfl,
      ⟨rfl, rfl, rfl, rfl⟩, rfl⟩⟩

end Sys2Proof.Machine
end

section
/-! The timers of a trip's class and demand expire: occupancy hold, aging, evac patience, shed hold; and from these O56 and O59. -/

namespace Sys2Proof.Machine

/-! ### The class of the trip (R55, R126) -/

/-- The occupancy flag cleared at the instant at which its hold expires (R126). -/
def occupancyEnded (since : Nat) (s : State) : State :=
  { passTo (since + Config.occupancyHoldTime) s with
    seq := { s.seq with occupancy := false, occupancyHold := .stopped } }

theorem execOccupancyHoldExpiry_running {s : State} {since : Nat} (h : s.seq.occupancyHold = .running since) :
    execOccupancyHoldExpiry s = .next (followOccupancy (occupancyEnded since s)) := by
  rw [execOccupancyHoldExpiry, if_pos (by rw [h]; rfl), h]
  rfl

/-- With the occupancy flag clear an evacuation trip that is not of class 2 becomes so; no other record changes (R126). -/
theorem followOccupancy_empty {s : State} (h : s.seq.occupancy = false) :
    (∃ x, s.seq.trip = some x ∧ x.purpose = .evacuation ∧
        followOccupancy s = changeTrip (some { x with cls := 2 }) s) ∨
      ((∀ x, s.seq.trip = some x → x.purpose = .evacuation → x.cls = 2) ∧ followOccupancy s = s) := by
  have hc : evacClass s = 2 := by simp [evacClass, h]
  cases hx : s.seq.trip with
  | none => exact .inr ⟨by simp, followOccupancy_none hx⟩
  | some x =>
    rw [followOccupancy_some hx, hc]
    by_cases hp : x.purpose = .evacuation ∧ x.cls ≠ 2
    · exact .inl ⟨x, rfl, hp.1, if_pos hp⟩
    · refine .inr ⟨?_, if_neg hp⟩
      rintro y ⟨⟩ he
      by_contra hne
      exact hp ⟨he, hne⟩

/-- The aging timer stopped at the instant at which it expires (R55). -/
def agingEnded (since : Nat) (s : State) : State :=
  { passTo (since + (conf s).agingTime * Config.second) s with seq := { s.seq with agingTimer := .stopped } }

/-- The trip whose CLAIM has not completed and whose class is above 3 (R55). -/
def Trip.ages (x : Trip) : Prop := (x.phase = .pending ∨ x.phase = .armed) ∧ 4 ≤ x.cls

theorem execAgingExpiry_ages {s : State} {since : Nat} {x : Trip} (h : s.seq.agingTimer = .running since)
    (hx : s.seq.trip = some x) (ha : x.ages) :
    execAgingExpiry s = .next (changeTrip (some { x with cls := 3 }) (agingEnded since s)) := by
  simp only [execAgingExpiry, h, Timer.isRunning_running, passToExpiry_running, if_true, passTo_keeps, hx]
  exact congrArg Host.Outcome.next (if_pos ha)

theorem execAgingExpiry_spares {s : State} {since : Nat} (h : s.seq.agingTimer = .running since)
    (ha : ∀ x, s.seq.trip = some x → ¬x.ages) : execAgingExpiry s = .next (agingEnded since s) := by
  simp only [execAgingExpiry, h, Timer.isRunning_running, passToExpiry_running, if_true, passTo_keeps]
  split
  · rename_i x hx
    exact congrArg Host.Outcome.next (if_neg (ha x hx))
  · rfl

/-- Settles O56: each class changes, or stands because the record has it, is of the other purpose or does not age. -/
theorem classesChange : Obligations.ClassesChange := by
  constructor
  · intro s since hsince
    refine ⟨_, execOccupancyHoldExpiry_running hsince, ?_⟩
    rcases followOccupancy_empty (s := occupancyEnded since s) rfl with ⟨x, hx, hp, he⟩ | ⟨hcls, he⟩
    · have hx' : s.seq.trip = some x := hx
      rw [he]
      refine ⟨rfl, rfl, ?_, ?_, by simp [hx'], fun _ => rfl, rfl⟩
      · rintro y hy -
        obtain rfl : x = y := by simpa [hx'] using hy
        rfl
      · rintro y hy hservice
        obtain rfl : x = y := by simpa [hx'] using hy
        rw [hp] at hservice
        cases hservice
    · rw [he]
      refine ⟨rfl, rfl, fun x hx hp => ?_, fun x hx _ => hx, id, fun hn => absurd rfl hn, rfl⟩
      rw [show { x with cls := 2 } = x by rw [← hcls x hx hp]]
      exact hx
  · intro s since hsince
    by_cases ha : ∃ x, s.seq.trip = some x ∧ x.ages
    · obtain ⟨x, hx, hages⟩ := ha
      refine ⟨_, execAgingExpiry_ages hsince hx hages, rfl, rfl, ?_, ?_, rfl⟩
      · rintro y hy - -
        obtain rfl : x = y := by simpa [hx] using hy
        exact ⟨rfl, rfl⟩
      · rintro y hy hspared
        obtain rfl : x = y := by simpa [hx] using hy
        obtain ⟨hphase, hcls⟩ := hages
        rcases hspared with h | h | h
        · simp [h] at hphase
        · simp [h] at hphase
        · omega
    · have hspared (x : Trip) (hx : s.seq.trip = some x) : ¬x.ages := fun hages => ha ⟨x, hx, hages⟩
      exact ⟨_, execAgingExpiry_spares hsince hspared, rfl, rfl, fun x hx hp hc => absurd ⟨hp, hc⟩ (hspared x hx),
        fun x hx _ => hx, rfl⟩

/-! ### The patience and the shed hold (R58, R157) -/

/-- The patience expired at its instant (R58). -/
def patienceEnded (since : Nat) (s : State) : State :=
  { passTo (since + (conf s).patience * Config.second) s with adm := { s.adm with patience := .expired } }

theorem execPatienceExpiry_running {s : State} {since : Nat} (h : s.adm.patience = .running since) :
    execPatienceExpiry s = .next (publishDemand (patienceEnded since s)) := by
  simp only [execPatienceExpiry, h]
  rfl

/-- The demand of a record that has published none: N at 25 or STBY, with PRESENCE due and ATTENTION (R58). -/
theorem publishDemand_first {s : State} {x : Trip} (hx : s.seq.trip = some x) (hn : s.adm.ownDemand = none)
    (hs : s.seq.state.driving = true) :
    publishDemand s = { s with
      adm := { s.adm with ownDemand := some x.figures.floorDraw }
      con := { s.con with presenceDue := true, remarked := s.con.remarked || s.con.attempt.serves .presence }
      link := { s.link with attention := true } } := by
  simp only [publishDemand, hx, hn]
  rw [markPresence_driving (by exact hs)]
  rfl

/-- A record publishes its demand once (R58). -/
theorem publishDemand_again {s : State} (h : s.adm.ownDemand ≠ none) : publishDemand s = s := by
  unfold publishDemand
  split
  · exact absurd ‹_› h
  · rfl

/-- The shed hold at the expiry of its timer, by the demands of the roster (R157). -/
def holdAfter (r : Roster) : ShedHold := if r.largestDemand = none then .clear else .awaitDemand

theorem execShedHoldExpiry_timing {s : State} {since : Nat} (h : s.seq.shedHold = .timing since) :
    execShedHoldExpiry s = .next { s with
      now := max s.now (since + (conf s).holdTime * 1000000)
      seq := { s.seq with shedHold := holdAfter s.roster } } := by
  simp only [execShedHoldExpiry, h]
  rfl

/-- Settles O59. -/
theorem patienceAndShedHoldEnd : Obligations.PatienceAndShedHoldEnd := by
  constructor
  · intro s x since hpatience hx hs
    refine ⟨_, execPatienceExpiry_running hpatience, ?_⟩
    by_cases hn : s.adm.ownDemand = none
    · rw [publishDemand_first (s := patienceEnded since s) hx hn hs]
      refine ⟨rfl, rfl, fun _ => ⟨rfl, rfl, fun a b c d hf => ?_, fun f hf => ?_⟩, fun h => absurd hn h,
        rfl, rfl, rfl, rfl, rfl, rfl, rfl, rfl, rfl⟩
      · simp only [hf]
        rfl
      · simp only [hf]
        rfl
    · rw [publishDemand_again (s := patienceEnded since s) hn]
      exact ⟨rfl, rfl, fun h => absurd h hn, fun _ => ⟨rfl, rfl, rfl⟩, rfl, rfl, rfl, rfl, rfl, rfl, rfl, rfl, rfl⟩
  · intro s since hhold
    have hnone := (largestDemand_largest s.roster).1
    refine ⟨_, execShedHoldExpiry_timing hhold, fun h => if_pos (hnone.mpr h), ?_⟩
    rintro ⟨r, hr, hdemand⟩
    exact if_neg fun h => hdemand (hnone.mp h r hr)

end Sys2Proof.Machine
end

section
/-!
Cap formed anew (R70, R71, R75): what abandoning a WAITING attempt leaves, the shed test upon a fall of Cap, and from these O44
and O48.
-/

namespace Sys2Proof.Machine

/-! ### A WAITING attempt abandoned (R110, R135) -/

theorem claimLost_armed {s : State} {x : Trip} (hx : s.seq.trip = some x) (ha : x.phase = .armed) :
    claimLost s = changeTrip (some { x with phase := .pending, step := none }) s := by
  simp only [claimLost, hx, ha, if_true]

theorem claimLost_unarmed {s : State} (h : ∀ x, s.seq.trip = some x → x.phase ≠ .armed) : claimLost s = s := by
  unfold claimLost
  split
  · rename_i x hx
    exact if_neg (h x hx)
  · rfl

theorem abandonAttempt_idle {s : State} (h : ∀ b, s.con.attempt ≠ .waiting b) : abandonAttempt s = s := by
  unfold abandonAttempt
  split
  · rename_i b hb
    exact absurd hb (h b)
  · rfl

theorem abandonAttempt_claim {s : State} {b : Body} (hb : s.con.attempt = .waiting b) (hk : b.kind = .claim) :
    abandonAttempt s = claimLost { s with con := s.con.noAttempt } := by
  simp only [abandonAttempt, hb, hk, if_true]

theorem abandonAttempt_other {s : State} {b : Body} (hb : s.con.attempt = .waiting b) (hk : b.kind ≠ .claim) :
    abandonAttempt s = { s with con := s.con.noAttempt } := by
  simp only [abandonAttempt, hb, if_neg hk]

/-- Abandoning is what R110 says of it, for a WAITING attempt of each kind and where none waits. -/
theorem abandonAttempt_abandoned (s : State) : Abandoned s (abandonAttempt s) := by
  by_cases hw : ∃ b, s.con.attempt = .waiting b
  case neg =>
    have hidle (b : Body) : s.con.attempt ≠ .waiting b := fun hb => hw ⟨b, hb⟩
    rw [abandonAttempt_idle hidle]
    refine ⟨fun b hb => absurd hb (hidle b), fun _ => ⟨rfl, rfl, rfl⟩, fun x hc => ?_, fun x _ hx => hx, id⟩
    unfold Attempt.isWaiting at hc
    split at hc
    · exact absurd ‹_› (hidle _)
    · cases hc
  obtain ⟨b, hb⟩ := hw
  have hwaits : s.con.attempt.isWaiting .claim = (b.kind == .claim) := by rw [hb]; rfl
  by_cases hk : b.kind = .claim
  case neg =>
    rw [abandonAttempt_other hb hk]
    exact ⟨fun _ _ => ⟨rfl, rfl, rfl⟩, fun hn => absurd hb (hn b), fun x hc => by simp [hwaits, hk] at hc,
      fun x _ hx => hx, id⟩
  rw [abandonAttempt_claim hb hk]
  by_cases ha : ∃ x, s.seq.trip = some x ∧ x.phase = .armed
  · obtain ⟨x, hx, ha⟩ := ha
    rw [claimLost_armed (s := { s with con := s.con.noAttempt }) hx ha]
    refine ⟨fun _ _ => ⟨rfl, rfl, rfl⟩, fun hn => absurd hb (hn b), ?_, ?_, by simp [hx]⟩
    · rintro y - hy -
      obtain rfl : x = y := by simpa [hx] using hy
      exact ⟨rfl, rfl⟩
    · rintro y hy' hy
      obtain rfl : x = y := by simpa [hx] using hy
      simp [hwaits, hk, ha] at hy'
  · have hun (x : Trip) (hx : s.seq.trip = some x) : x.phase ≠ .armed := fun h => ha ⟨x, hx, h⟩
    rw [claimLost_unarmed (s := { s with con := s.con.noAttempt }) hun]
    exact ⟨fun _ _ => ⟨rfl, rfl, rfl⟩, fun hn => absurd hb (hn b), fun x _ hx h => absurd h (hun x hx),
      fun x _ hx => hx, id⟩

/-- What follows that touches neither the attempt nor the record leaves the abandonment as it is. -/
theorem Abandoned.kept {s t u : State} (h : Abandoned s t) (hcon : u.con = t.con) (htrip : u.seq.trip = t.seq.trip)
    (hattention : t.link.attention = true → u.link.attention = true) : Abandoned s u := by
  obtain ⟨hwaiting, hidle, harmed, hother, hnone⟩ := h
  rw [Abandoned, hcon, htrip]
  refine ⟨hwaiting, hidle, fun x hc hx ha => ?_, hother, hnone⟩
  obtain ⟨h1, h2⟩ := harmed x hc hx ha
  exact ⟨h1, hattention h2⟩

/-! ### The shed test after the notice (R151, log 44) -/

theorem AttemptLost.isSending {s t : State} (h : AttemptLost s t) {k : MessageKind}
    (hs : s.con.attempt.isSending k = false) : t.con.attempt.isSending k = false := by
  rcases h.con with hc | hc <;> rw [hc]
  · exact hs
  · rfl

theorem AttemptLost.shedsOwn {s t : State} (h : AttemptLost s t) : ShedsOwn t ↔ ShedsOwn s := by
  rw [h.frame]
  exact Iff.rfl

theorem AttemptLost.shedViewed {s t u : State} (h : AttemptLost s t) (hv : ShedViewed t u) : ShedViewed s u := by
  rw [h.frame] at hv
  exact hv

/-- A shed that follows the loss of a WAITING attempt is the shed of the state before it: the shed reads of the record only what
the loss leaves (R110, R154). -/
theorem AttemptLost.shedActed {s t u : State} (h : AttemptLost s t)
    (hsending : s.con.attempt.isSending .claim = true → t = s) (ha : ShedActed t u) : ShedActed s u := by
  obtain ⟨hspared, hshed⟩ := ha
  obtain ⟨hrelease, hclaim, -⟩ := h.slots
  have hseq : t.seq = { s.seq with trip := t.seq.trip } := by rw [h.frame]
  have hstate : t.seq.state = s.seq.state := by rw [hseq]
  have hlast : t.seq.lastTripId = s.seq.lastTripId := by rw [hseq]
  rw [h.shedsOwn, hrelease, hclaim, hseq] at hspared
  refine ⟨hspared, fun hown => ?_⟩
  obtain ⟨hidle, hwait, hsend, hrun, hevac, helse⟩ := hshed (h.shedsOwn.mpr hown)
  rw [hstate, hlast] at hidle hwait
  rw [hstate] at hsend hrun
  rw [hstate, hlast, h.tripId, hclaim, hseq] at hevac
  rw [hstate, hrelease, hseq] at helse
  refine ⟨fun hs => ?_, fun hs hn => hwait hs (h.isSending hn), fun hs hy => ?_, fun hs => ?_, hevac, helse⟩
  · obtain ⟨h1, h2, h3, h4, h5, h6, h7⟩ := hidle hs
    exact ⟨h1, h2, h3, h4, h5, h6, fun hin => h7 (h.tripIn (by decide) hin)⟩
  · obtain rfl := hsending hy
    exact hsend hs hy
  · obtain ⟨h1, h2, h3, h4, h5⟩ := hrun hs
    refine ⟨by rw [h1, hseq], fun hin => ?_, h3.trans hrelease, h4, h5⟩
    rw [h2 (h.tripIn (by decide) hin)]
    rcases h.trip with ht | ⟨x, hx, hx', -⟩
    · exact ht
    · simp [Machine.tripIn, hx, hx'] at hin

/-! ### The own commitment through a shed (R119) -/

theorem AttemptLost.commitment {s t : State} (h : AttemptLost s t) : t.seq.commitment = s.seq.commitment := by
  rw [h.frame]

theorem goTo_commitment (st : SeqState) (s : State) : (goTo st s).seq.commitment = s.seq.commitment := by
  unfold goTo
  split <;> rfl

theorem postShed_commitment (id : Fin 16) (s : State) : (postShed id s).seq.commitment = s.seq.commitment := by
  have hpost := (postRelease_lost (shedRelease id) s).commitment
  simp only [postShed, markPresence_keeps]
  exact hpost

theorem enterParked_commitment (s : State) : (enterParked s).seq.commitment = s.seq.commitment := by
  simp [enterParked, goTo_commitment]

theorem withdrawClaim_commitment (s : State) : (withdrawClaim s).seq.commitment = s.seq.commitment := by
  unfold withdrawClaim
  dsimp only
  split
  · rfl
  · split
    · exact (abandonAttempt_lost s).commitment
    · rfl

theorem endTrip_commitment (s : State) : (endTrip s).seq.commitment = s.seq.commitment := by
  obtain ⟨attention, he⟩ := endTrip_eq s
  rw [he]

/-- The own standing waits for the RELEASE of a shed to complete (R119). -/
theorem shedCar_commitment (s : State) : (shedCar s).seq.commitment = s.seq.commitment := by
  unfold shedCar
  split
  · simp [enterParked_commitment, postShed_commitment]
  · split
    · simp [oweShed, withdrawClaim_commitment]
    · simp [enterParked_commitment, postShed_commitment, endTrip_commitment, withdrawClaim_commitment]
  · simp [enterShedPending, goTo_commitment]
  · exact postShed_commitment ..
  · exact postShed_commitment ..
  · rfl

/-- A car outside the shed set may have a condition raised, which lowers no ATTENTION. -/
theorem shedTest_attention {s : State} (h : s.seq.state.driving = true) (hown : ¬ShedsOwn s)
    (ha : s.link.attention = true) : (shedTest s).link.attention = true := by
  obtain ⟨v, hv, -, -, hleave⟩ := shedTest_driving h
  rw [hleave hown]
  exact hv.attention ha

theorem shedTest_commitment {s : State} (h : s.seq.state.driving = true) :
    (shedTest s).seq.commitment = s.seq.commitment := by
  obtain ⟨v, hv, -, hshed, hleave⟩ := shedTest_driving h
  have hseq : v.seq = s.seq := by rw [hv.frame]
  by_cases hown : ShedsOwn s
  · rw [hshed hown, shedCar_commitment, hseq]
  · rw [hleave hown, hseq]

/-! ### Cap formed anew (R70, R71, R75) -/

/-- Cap at the value that C and K give, with the hold started by its change (R70, R71). -/
def capFormed (s : State) : State :=
  { s with supply := { s.supply with capHeld := capacityOf s, holdTimer := .running s.now } }

theorem reformCap_same {s : State} (h : capacityOf s = s.supply.capHeld) : reformCap s = s := by
  simp [reformCap, h]

/-- A change of Cap is a notice, which abandons a WAITING attempt; upon a fall in a session the shed test runs (R71, R75,
R151). -/
theorem reformCap_changed {s : State} (hc : configured s = true) (h : capacityOf s ≠ s.supply.capHeld) :
    reformCap s = if capacityOf s < s.supply.capHeld ∧ s.seq.state.session = true then
      shedTest (abandonAttempt (capFormed s)) else abandonAttempt (capFormed s) := by
  have hdue : noticeDue s.supply (capFormed s).supply = true := by simp [noticeDue, capFormed, Ne.symm h]
  have hnotice := noticeAfter_due s.supply (capFormed s) hdue
  have hno : (!configured s || capacityOf s == s.supply.capHeld) = false := by simp [hc, h]
  simp only [reformCap, hno, Bool.false_eq_true, if_false, noticeAfter_keeps]
  rw [← hnotice]
  rfl

/-- Without a fall in a driving state the notice is all (R151). -/
theorem reformCap_unshed {s : State} (hc : configured s = true) (h : capacityOf s ≠ s.supply.capHeld)
    (hn : s.supply.capHeld < capacityOf s ∨ s.seq.state.driving = false) :
    reformCap s = abandonAttempt (capFormed s) := by
  rw [reformCap_changed hc h]
  split
  · rename_i hfall
    exact shedTest_silent _ (by simpa [capFormed] using hn.resolve_left (by omega))
  · rfl

theorem SeqState.session_of_driving {st : SeqState} (h : st.driving = true) : st.session = true := by
  cases st <;> first | rfl | cases h

theorem reformCap_fall {s : State} (hc : configured s = true) (h : capacityOf s < s.supply.capHeld)
    (hd : s.seq.state.driving = true) : reformCap s = shedTest (abandonAttempt (capFormed s)) := by
  rw [reformCap_changed hc h.ne, if_pos ⟨h, SeqState.session_of_driving hd⟩]

/-- What forming Cap anew does: nothing where it gives the same Cap; else the hold and the notice, with the shed test where it falls in
a driving state. -/
structure CapReformed (s t : State) : Prop where
  supply : t.supply = { s.supply with
    capHeld := capacityOf s
    holdTimer := if capacityOf s = s.supply.capHeld then s.supply.holdTimer else .running s.now }
  same : capacityOf s = s.supply.capHeld → t = s
  waits : capacityOf s ≠ s.supply.capHeld → ∀ b, t.con.attempt ≠ .waiting b
  unshed : s.supply.capHeld < capacityOf s ∨ (capacityOf s < s.supply.capHeld ∧ s.seq.state.driving = false) →
    Abandoned s t ∧ t.adm = s.adm ∧ t.seq = { s.seq with trip := t.seq.trip } ∧
      t.con.releaseSlot = s.con.releaseSlot ∧ t.con.claimSlot = s.con.claimSlot ∧
      t.con.presenceDue = s.con.presenceDue
  shed : capacityOf s < s.supply.capHeld → s.seq.state.driving = true →
    ShedViewed { s with supply := t.supply } t ∧ ShedActed { s with supply := t.supply } t ∧
      (¬ShedsOwn { s with supply := t.supply } → Abandoned s t)
  commitment : t.seq.commitment = s.seq.commitment

theorem reformCap_same_reformed {s : State} (h : capacityOf s = s.supply.capHeld) : CapReformed s (reformCap s) := by
  rw [reformCap_same h]
  refine ⟨?_, fun _ => rfl, fun hn => absurd h hn, fun hn => ?_, fun hn => ?_, rfl⟩
  · rw [if_pos h, h]
  · omega
  · omega

theorem reformCap_unshed_reformed {s : State} (hc : configured s = true) (h : capacityOf s ≠ s.supply.capHeld)
    (hn : s.supply.capHeld < capacityOf s ∨ s.seq.state.driving = false) : CapReformed s (reformCap s) := by
  have hlost := abandonAttempt_lost (capFormed s)
  rw [reformCap_unshed hc h hn]
  refine ⟨?_, fun he => absurd he h, fun _ => abandonAttempt_not_waiting _, fun _ => ?_, fun hfall hd => ?_,
    hlost.commitment⟩
  · rw [if_neg h, (abandonAttempt_keeps _).2.2.2.2.2.2.2.1]
    rfl
  · have hseq : (abandonAttempt (capFormed s)).seq =
        { s.seq with trip := (abandonAttempt (capFormed s)).seq.trip } := by rw [hlost.frame]; rfl
    have hadm : (abandonAttempt (capFormed s)).adm = s.adm := by rw [hlost.frame]; rfl
    exact ⟨abandonAttempt_abandoned (capFormed s), hadm, hseq, hlost.slots⟩
  · rcases hn with hn | hn
    · omega
    · rw [hd] at hn
      cases hn

theorem reformCap_fall_reformed {s : State} (hc : configured s = true) (h : capacityOf s < s.supply.capHeld)
    (hd : s.seq.state.driving = true) : CapReformed s (reformCap s) := by
  have hlost := abandonAttempt_lost (capFormed s)
  have habandoned := abandonAttempt_abandoned (capFormed s)
  have hd' : (abandonAttempt (capFormed s)).seq.state.driving = true := by simpa [capFormed] using hd
  have hsupply : (shedTest (abandonAttempt (capFormed s))).supply = (capFormed s).supply := by simp
  rw [reformCap_fall hc h hd]
  refine ⟨?_, fun he => absurd he h.ne, fun _ b hb => ?_, fun hn => ?_, fun _ _ => ?_, ?_⟩
  · rw [hsupply, if_neg h.ne]
    rfl
  · rcases shedTest_attempt (abandonAttempt (capFormed s)) with he | he
    · exact abandonAttempt_not_waiting _ b (he.symm.trans hb)
    · rw [he] at hb
      cases hb
  · rcases hn with hn | ⟨-, hn⟩
    · omega
    · rw [hd] at hn
      cases hn
  · rw [hsupply]
    refine ⟨hlost.shedViewed (shedTest_viewed hd'), hlost.shedActed abandonAttempt_sending (shedTest_acted hd'), fun hown => ?_⟩
    have hown' : ¬ShedsOwn (abandonAttempt (capFormed s)) := fun ho => hown (hlost.shedsOwn.mp ho)
    obtain ⟨hseq, hcon⟩ := shedTest_spared hd' hown'
    exact habandoned.kept hcon (by rw [hseq]) (shedTest_attention hd' hown')
  · rw [shedTest_commitment hd', hlost.commitment]
    rfl

theorem reformCap_reformed {s : State} (hc : configured s = true) : CapReformed s (reformCap s) := by
  by_cases h : capacityOf s = s.supply.capHeld
  · exact reformCap_same_reformed h
  by_cases hfall : capacityOf s < s.supply.capHeld ∧ s.seq.state.driving = true
  · exact reformCap_fall_reformed hc hfall.1 hfall.2
  · refine reformCap_unshed_reformed hc h ?_
    by_cases hd : s.seq.state.driving = true
    · have hle : ¬capacityOf s < s.supply.capHeld := fun hlt => hfall ⟨hlt, hd⟩
      exact .inl (by omega)
    · exact .inr (by simpa using hd)

/-! ### The CAP debounce (R64) -/

/-- The candidate taken as C at the instant at which the debounce expires (R64). -/
def capRead (code : Fin 8) (since : Nat) (s : State) : State :=
  { passTo (since + Config.contactDebounce) s with
    supply := { s.supply with capCode := code, candidate := none, capTimer := .stopped } }

theorem execCapDebounceExpiry_running {s : State} {code : Fin 8} {since : Nat} (hc : s.supply.candidate = some code)
    (ht : s.supply.capTimer = .running since) : execCapDebounceExpiry s = .next (reformCap (capRead code since s)) := by
  simp only [execCapDebounceExpiry, hc, ht]
  rfl

/-- Settles O44: Cap formed anew from the code read. -/
theorem capDebounced : Obligations.CapDebounced := by
  intro s code since hconf hcandidate htimer
  have h := reformCap_reformed (s := capRead code since s) hconf
  have hnow : (reformCap (capRead code since s)).now = max s.now (since + 200000) := by simp [capRead]; rfl
  refine ⟨_, execCapDebounceExpiry_running hcandidate htimer, ?_⟩
  have hcap : (reformCap (capRead code since s)).supply.capHeld = capacityOf (capRead code since s) := by rw [h.supply]
  rw [hnow, hcap]
  refine ⟨by rw [h.supply]; rfl, by rw [h.supply]; rfl, by rw [h.supply]; rfl, rfl, rfl, fun he => ⟨?_, ?_⟩,
    fun hne => ⟨?_, h.waits hne⟩, h.unshed, h.shed, by rw [h.supply]; rfl, by rw [h.supply]; rfl, by simp [capRead],
    by simp [capRead], by simp [capRead], by simp [capRead], by simp [capRead], h.commitment⟩
  · rw [h.same he]
    rfl
  · rw [h.same he]
    rfl
  · rw [h.supply]
    exact if_neg hne

/-! ### The UNDER timer (R72) -/

/-- The UNDER timer stopped at the instant at which it reaches its time (R72). -/
def underEnded (since : Nat) (s : State) : State :=
  { passTo (since + Config.underTime) s with supply := { s.supply with underTimer := .stopped } }

/-- K raised by 1, at most to 7, and the episode marked (R72). -/
def derated (s : State) : State :=
  { s with supply := { s.supply with derate := min 7 (s.supply.derate + 1), episodeMark := true } }

theorem execUnderTimerExpiry_running {s : State} {since : Nat} (h : s.supply.underTimer = .running since) :
    execUnderTimerExpiry s = .next (if s.supply.episodeMark then underEnded since s
      else reformCap (derated (underEnded since s))) := by
  simp only [execUnderTimerExpiry, h, Timer.isRunning_running, passToExpiry_running, if_true, passTo_keeps]
  split <;> rfl

/-- Settles O48: an episode already marked, or Cap formed anew from the derating. -/
theorem underTimerDerates : Obligations.UnderTimerDerates := by
  intro s since hconf htimer
  refine ⟨_, execUnderTimerExpiry_running htimer, ?_⟩
  cases hmark : s.supply.episodeMark
  case true => exact ⟨rfl, rfl, hmark, fun _ => rfl, nofun, rfl, rfl, rfl, rfl, rfl, rfl⟩
  have h := reformCap_reformed (s := derated (underEnded since s)) hconf
  have hnow : (reformCap (derated (underEnded since s))).now = max s.now (since + 2000000) := by
    simp [derated, underEnded]
    rfl
  have hcap : (reformCap (derated (underEnded since s))).supply.capHeld =
      capacityOf (derated (underEnded since s)) := by rw [h.supply]
  have hderate : (reformCap (derated (underEnded since s))).supply.derate = min 7 (s.supply.derate + 1) := by
    rw [h.supply]
    rfl
  simp only [Bool.false_eq_true, if_false]
  rw [hnow, hcap, hderate]
  refine ⟨rfl, by rw [h.supply]; rfl, by rw [h.supply]; rfl, nofun, fun _ => ⟨rfl, rfl,
    fun hne => ⟨?_, h.waits hne⟩, fun he => ?_, h.unshed, h.shed⟩, by rw [h.supply]; rfl, by rw [h.supply]; rfl,
    by simp [derated, underEnded], by simp [derated, underEnded], by simp [derated, underEnded],
    by simp [derated, underEnded]⟩
  · rw [h.supply]
    exact if_neg hne
  · rw [h.same he]
    rfl

end Sys2Proof.Machine
end

section
/-! The admission test (R38 to R51): the sums, the steps searched, the outcome by the first step that fits. -/

namespace Sys2Proof.Machine

/-! ### The steps searched (R48) -/

theorem searchSteps_wake {s : State} {x : Trip} {f : StepFigures} (h : x.figures = .wake f) :
    searchSteps s x = [(none, f)] := by
  simp only [searchSteps, h]

/-- An evacuation trip of a car that is not locked out tries every step, a locked out one 25 alone; a service trip tries
those from LSPD on (R48). -/
theorem searchSteps_run {s : State} {x : Trip} {a b c d : StepFigures} (h : x.figures = .run a b c d) :
    searchSteps s x =
      if x.cls ≤ 2 then
        (if s.seq.lockout then [(some .p25, a)] else [(some .p100, d), (some .p75, c), (some .p50, b), (some .p25, a)])
      else match (conf s).lspd with
        | .p25 => [(some .p100, d), (some .p75, c), (some .p50, b), (some .p25, a)]
        | .p50 => [(some .p100, d), (some .p75, c), (some .p50, b)]
        | .p75 => [(some .p100, d), (some .p75, c)]
        | .p100 => [(some .p100, d)] := by
  simp only [searchSteps, h]
  by_cases hcls : x.cls ≤ 2
  · simp only [if_pos hcls]
    cases s.seq.lockout <;> rfl
  · simp only [if_neg hcls]
    cases (conf s).lspd <;> rfl

/-! ### A step that fits (R49) and a settled supply (R51) -/

theorem stepFits_iff (s : State) (mpos gneg : Nat) (f : StepFigures) :
    stepFits s mpos gneg f = true ↔ Fits s mpos gneg f := by
  have hallowance : stepAllowance s = capacityOf s * (conf s).stepa / 100 := rfl
  rw [stepFits, Fits, hallowance, Bool.and_eq_true, decide_eq_true_eq]
  refine and_congr_right fun _ => ?_
  unfold flowOf
  rcases lt_trichotomy f.draw 0 with h | h | h
  · rw [if_neg (by omega), if_neg (by omega), decide_eq_true_eq]
    exact ⟨fun hf => ⟨fun hp => by omega, fun _ => hf⟩, fun hf => hf.2 h⟩
  · rw [if_neg (by omega), if_pos h]
    exact ⟨fun _ => ⟨fun hp => by omega, fun hn => by omega⟩, fun _ => rfl⟩
  · rw [if_pos h, decide_eq_true_eq]
    exact ⟨fun hf => ⟨fun _ => hf, fun hn => by omega⟩, fun hf => hf.1 h⟩

theorem settledFor_iff (s : State) (cls : Nat) : s.supply.settledFor cls = true ↔ SettledFor s cls := by
  have hle : (3 ≤ cls) = ¬cls ≤ 2 := by simp; omega
  by_cases h : cls ≤ 2 <;>
    simp [SupplyMonitor.settledFor, SupplyMonitor.settledService, SupplyMonitor.settledEvac, SupplyMonitor.holding,
      SettledFor, h, hle, and_assoc]

/-! ### The outcome (R45, R50) -/

/-- A condition that applies and whose mask is lifted leaves every trip UNDECIDED (R45, R50). -/
def LeftUndecided (s : State) : Prop :=
  ((conf s).unmaskStale = true ∧ ∃ r ∈ s.roster.records, r.fresh = false) ∨
    ((conf s).unmaskPhantom = true ∧ s.roster.records.length < (conf s).census - 1)

theorem staleApplies_iff (s : State) : staleApplies s = true ↔ ∃ r ∈ s.roster.records, r.fresh = false := by
  simp [staleApplies, Roster.staleCount, List.length_pos_iff_exists_mem]

theorem phantomApplies_iff (s : State) :
    phantomApplies s = true ↔ s.roster.records.length < (conf s).census - 1 := by
  simp [phantomApplies, unheardCount, Roster.count]

theorem leftUndecided_iff (s : State) :
    ((staleApplies s && (conf s).unmaskStale) || (phantomApplies s && (conf s).unmaskPhantom)) = true ↔
      LeftUndecided s := by
  rw [Bool.or_eq_true, Bool.and_eq_true, Bool.and_eq_true, staleApplies_iff, phantomApplies_iff, LeftUndecided]
  exact or_congr and_comm and_comm

theorem decideTrip_undecided {s : State} (h : LeftUndecided s) (x : Trip) :
    decideTrip s x = { outcome := .undecided, offer := none } := by
  rw [decideTrip, if_pos ((leftUndecided_iff s).mpr h)]

/-- The first step that fits decides, with the settle check (R50, R51). -/
theorem decideTrip_fits {s : State} {x : Trip} (hn : ¬LeftUndecided s)
    {before after : List (Option SpeedStep × StepFigures)} {y : Option SpeedStep × StepFigures}
    (hsteps : searchSteps s x = before ++ y :: after)
    (hbefore : ∀ z ∈ before, ¬Fits s (motoringSum s) (returningSum s) z.2)
    (hy : Fits s (motoringSum s) (returningSum s) y.2) :
    decideTrip s x = if s.supply.settledFor x.cls then { outcome := .admitted, offer := some y }
      else { outcome := .waitSettle, offer := none } := by
  have hfind : (searchSteps s x).find? (fun z => stepFits s (motoringSum s) (returningSum s) z.2) = some y := by
    refine List.find?_eq_some_iff_append.mpr ⟨(stepFits_iff ..).mpr hy, before, after, hsteps, fun z hz => ?_⟩
    rw [Bool.not_eq_true', ← Bool.not_eq_true, stepFits_iff]
    exact hbefore z hz
  rw [decideTrip, if_neg (by rwa [leftUndecided_iff])]
  simp only [hfind]

/-- Where no step fits, the floor step on the empty plant tells a wait for headroom from a trip that exceeds (R50). -/
theorem decideTrip_unfit {s : State} {x : Trip} (hn : ¬LeftUndecided s)
    {above : List (Option SpeedStep × StepFigures)} {lowest : Option SpeedStep × StepFigures}
    (hall : ∀ y ∈ searchSteps s x, ¬Fits s (motoringSum s) (returningSum s) y.2)
    (hsteps : searchSteps s x = above ++ [lowest]) :
    decideTrip s x = { outcome := if stepFits s 0 0 lowest.2 then .waitHeadroom else .exceeds, offer := none } := by
  have hfind : (searchSteps s x).find? (fun z => stepFits s (motoringSum s) (returningSum s) z.2) = none := by
    refine List.find?_eq_none.mpr fun z hz => ?_
    simpa [stepFits_iff] using hall z hz
  have hlast : (searchSteps s x).getLast? = some lowest := by simp [hsteps]
  rw [decideTrip, if_neg (by rwa [leftUndecided_iff])]
  simp only [hfind, hlast, Option.map_some, Option.getD_some]

/-- Only an ADMIT offers a step (R52). -/
theorem decideTrip_offer {s : State} {x : Trip} {o : Option SpeedStep × StepFigures}
    (h : (decideTrip s x).offer = some o) : (decideTrip s x).outcome = .admitted := by
  revert h
  unfold decideTrip
  dsimp only
  split
  · exact nofun
  · split
    · exact nofun
    · split
      · exact fun _ => rfl
      · exact nofun

/-- The admission test by the rules: sums, steps, and the outcome in the order of R50. -/
theorem decideTrip_byRules (s : State) (x : Trip) :
    (LeftUndecided s → decideTrip s x = { outcome := .undecided, offer := none }) ∧
    (¬LeftUndecided s →
      (∀ before y after, searchSteps s x = before ++ y :: after →
        (∀ z ∈ before, ¬Fits s (motoringSum s) (returningSum s) z.2) → Fits s (motoringSum s) (returningSum s) y.2 →
        (SettledFor s x.cls → decideTrip s x = { outcome := .admitted, offer := some y }) ∧
        (¬SettledFor s x.cls → decideTrip s x = { outcome := .waitSettle, offer := none })) ∧
      ((∀ y ∈ searchSteps s x, ¬Fits s (motoringSum s) (returningSum s) y.2) →
        ∀ above lowest, searchSteps s x = above ++ [lowest] →
        (Fits s 0 0 lowest.2 → decideTrip s x = { outcome := .waitHeadroom, offer := none }) ∧
        (¬Fits s 0 0 lowest.2 → decideTrip s x = { outcome := .exceeds, offer := none }))) := by
  refine ⟨fun h => decideTrip_undecided h x, fun hn => ⟨fun before y after hsteps hbefore hy => ?_,
    fun hall above lowest hsteps => ?_⟩⟩
  · rw [decideTrip_fits hn hsteps hbefore hy, ← settledFor_iff]
    exact ⟨fun h => if_pos h, fun h => if_neg h⟩
  · rw [decideTrip_unfit hn hall hsteps, ← stepFits_iff]
    exact ⟨fun h => by rw [if_pos h], fun h => by rw [if_neg h]⟩

end Sys2Proof.Machine
end

section
/-!
A reference point (R46, R54, R100, R107): the return to a trip's origin, the evaluation with the conditions it raises, an EXCEEDS,
and the choice that follows; and from these O16.
-/

namespace Sys2Proof.Machine

/-! ### The return to the origin (R135, R144) -/

theorem Origin.home_driving (o : Origin) : o.home.driving = true := by cases o <;> rfl

/-- A change of state as one update, which is none where the state stands (R118). -/
theorem goTo_eq (st : SeqState) (s : State) :
    goTo st s = { s with
      seq := { s.seq with
        state := st, shdn := if s.seq.state = st then s.seq.shdn else st == .shedPending }
      link := { s.link with attention := s.link.attention || s.seq.state != st } } := by
  by_cases h : s.seq.state = st
  · rw [goTo_same h, if_pos h, ← h, bne_self_eq_false, Bool.or_false]
  · rw [goTo_other h, if_neg h, bne_iff_ne.mpr h, Bool.or_true]

/-- The state a trip came from, entered again with PRESENCE due; SERVICE_IDLE starts its timer. -/
def returned (o : Origin) (s : State) : State :=
  { s with
    seq := { s.seq with
      state := o.home, shdn := if s.seq.state = o.home then s.seq.shdn else false
      idleTimer := if o = .serviceIdle then .running s.now else s.seq.idleTimer }
    con := { s.con with presenceDue := true, remarked := s.con.remarked || s.con.attempt.serves .presence }
    link := { s.link with attention := s.link.attention || s.seq.state != o.home } }

theorem returnToOrigin_eq (o : Origin) (s : State) : returnToOrigin o s = returned o s := by
  cases o
  case serviceIdle =>
    rw [returnToOrigin, enterServiceIdle, goTo_eq]
    exact markPresence_driving rfl
  case parked =>
    rw [returnToOrigin, enterParked, goTo_eq]
    exact markPresence_driving rfl
  all_goals
    rw [returnToOrigin, enterEvacWait, goTo_eq]
    exact markPresence_driving rfl

/-! ### The conditions an evaluation raises (R42, R45) -/

/-- The conditions after an evaluation: STALE, PHANTOM and SATURATE where they apply. -/
def conditionsRaised (s : State) : Conditions :=
  { s.adm.conditions with
    stale := s.adm.conditions.stale || staleApplies s
    phantom := s.adm.conditions.phantom || phantomApplies s
    saturate := s.adm.conditions.saturate ||
      (motoringSum s == Config.sumLimit || returningSum s == Config.sumLimit) }

theorem raiseIf_conditions (p : Bool) (k : Condition) (s : State) :
    (raiseIf p k s).adm.conditions = if p then s.adm.conditions.raised k else s.adm.conditions := by
  cases p <;> simp [raiseIf]

theorem raiseAtEvaluation_conditions (s : State) : (raiseAtEvaluation s).adm.conditions = conditionsRaised s := by
  simp only [raiseAtEvaluation, raiseIf_conditions, conditionsRaised]
  cases staleApplies s <;> cases phantomApplies s <;>
    cases motoringSum s == Config.sumLimit || returningSum s == Config.sumLimit <;>
    simp [Conditions.raised]

/-! ### The evaluation (R46, R47, R54, R57) -/

/-- The view, the patience timer and the conditions that an evaluation writes. -/
def viewed (x : Trip) (attention : Bool) (s : State) : State :=
  { s with
    adm := { s.adm with
      conditions := conditionsRaised s, view := viewAfter s (decideTrip s x)
      patience := patienceAfter s.adm.patience (decideTrip s x).outcome x.cls s.now }
    link := { s.link with attention := attention } }

/-- An EXCEEDS: the record NONE, its slot empty, its timers stopped and its demand withdrawn, the refusal held for SENSE (R54). -/
def tripExceeded (x : Trip) (s : State) : State :=
  { s with
    seq := { s.seq with trip := none, agingTimer := .stopped }
    adm := { s.adm with
      view := { s.adm.view with exceeded := true }, patience := .stopped, ownDemand := none }
    con := { s.con with claimSlot := none }
    link := { s.link with reason := .exceedsCapacity, detail := x.id.val, attention := true } }

theorem endExceeded_eq {s : State} {x : Trip} (hx : s.seq.trip = some x) :
    endExceeded x s = returned x.origin (tripExceeded x s) := by
  rw [endExceeded, endTrip_some (by exact hx), returnToOrigin_eq]
  rfl

theorem evaluateTrip_eq {s : State} {x : Trip} (hx : s.seq.trip = some x) :
    ∃ attention, (s.link.attention = true → attention = true) ∧
      evaluateTrip x s = if (decideTrip s x).outcome = .exceeds
        then returned x.origin (tripExceeded x (viewed x attention s)) else viewed x attention s := by
  have hr := raiseAtEvaluation_onlyRaised s
  have hconditions := raiseAtEvaluation_conditions s
  refine ⟨(raiseAtEvaluation s).link.attention, hr.attention, ?_⟩
  rw [← endExceeded_eq (s := viewed x (raiseAtEvaluation s).link.attention s) hx]
  have hviewed : viewed x (raiseAtEvaluation s).link.attention s = { raiseAtEvaluation s with
      adm := { (raiseAtEvaluation s).adm with
        view := viewAfter s (decideTrip s x)
        patience := patienceAfter s.adm.patience (decideTrip s x).outcome x.cls s.now } } := by
    rw [hr.frame, hconditions]
    rfl
  rw [hviewed]
  rfl

/-- The patience timer runs on from its start while an evacuation trip waits for headroom, and stops at any other outcome (R57). -/
theorem patienceAfter_waiting {outcome : Admission} {cls : Nat} (ho : outcome = .waitHeadroom) (hc : cls ≤ 2)
    (p : PatienceTimer) (now : Nat) :
    patienceAfter p outcome cls now = if p = .stopped then .running now else p := by
  have hw : outcome = .waitHeadroom ∧ cls ≤ 2 := ⟨ho, hc⟩
  simp only [patienceAfter, if_pos hw]
  cases p <;> rfl

theorem patienceAfter_stopped {outcome : Admission} {cls : Nat} (h : outcome ≠ .waitHeadroom ∨ 3 ≤ cls)
    (p : PatienceTimer) (now : Nat) : patienceAfter p outcome cls now = .stopped := by
  have hw : ¬(outcome = .waitHeadroom ∧ cls ≤ 2) := by
    rintro ⟨ho, hc⟩
    rcases h with h | h
    · exact h ho
    · omega
  simp only [patienceAfter, if_neg hw]

/-- An evaluation leaves what R47, R54 and R57 say. -/
theorem evaluateTrip_evaluates {s : State} {x : Trip} (hx : s.seq.trip = some x) :
    Evaluated s (evaluateTrip x s) x ∧ (evaluateTrip x s).adm.conditions = conditionsRaised s := by
  obtain ⟨attention, -, he⟩ := evaluateTrip_eq hx
  rw [he]
  split
  · rename_i hexceeds
    exact ⟨⟨rfl, rfl, rfl, rfl, rfl, rfl, rfl, rfl, fun hn => absurd hexceeds hn,
      fun _ => ⟨rfl, rfl, rfl, rfl, rfl, rfl, rfl, rfl, rfl, rfl, rfl⟩⟩, rfl⟩
  · rename_i hn
    exact ⟨⟨rfl, rfl, rfl, rfl, rfl, rfl, rfl, rfl, fun _ => ⟨rfl, rfl, rfl, rfl,
      fun ho hc => patienceAfter_waiting ho hc .., fun h => patienceAfter_stopped h ..⟩, fun h => absurd h hn⟩, rfl⟩

theorem evaluate_pending {s : State} {x : Trip} (hx : s.seq.trip = some x) (hp : x.phase = .pending)
    (hf : s.seq.state ≠ .fallback) (hi : s.seq.state ≠ .isolated) : evaluate s = evaluateTrip x s := by
  have he : evaluable s x = true := by simp [evaluable, hp, hf, hi]
  simp only [evaluate, hx, he, if_true]

/-- What an evaluation, of whatever outcome, leaves to the choice after it. -/
structure EvaluationLeaves (s t : State) : Prop where
  seq : t.seq = { s.seq with
    state := t.seq.state, shdn := t.seq.shdn, trip := t.seq.trip, agingTimer := t.seq.agingTimer
    idleTimer := t.seq.idleTimer }
  con : t.con = { s.con with
    claimSlot := t.con.claimSlot, presenceDue := t.con.presenceDue, remarked := t.con.remarked }
  driving : s.seq.state.driving = true → t.seq.state.driving = true
  due : s.con.presenceDue = true → t.con.presenceDue = true
  claimSlot : s.con.claimSlot = none → t.con.claimSlot = none
  trip : t.seq.trip = s.seq.trip ∨ t.seq.trip = none
  line : s.adm.conditions.line = true → t.adm.conditions.line = true
  unexceeded : (∀ x, s.seq.trip = some x → (decideTrip s x).outcome ≠ .exceeds) →
    t.seq = s.seq ∧ t.con = s.con ∧ t.adm.ownDemand = s.adm.ownDemand

theorem evaluate_leaves (s : State) : EvaluationLeaves s (evaluate s) := by
  rcases evaluate_cases s with he | ⟨x, hx, -, he⟩
  · rw [he]
    exact ⟨rfl, rfl, id, id, id, .inl rfl, id, fun _ => ⟨rfl, rfl, rfl⟩⟩
  obtain ⟨attention, -, ht⟩ := evaluateTrip_eq hx
  rw [he, ht]
  split
  · rename_i hexceeds
    exact ⟨rfl, rfl, fun _ => x.origin.home_driving, fun _ => rfl, fun _ => rfl, .inr rfl, id,
      fun h => absurd hexceeds (h x hx)⟩
  · exact ⟨rfl, rfl, id, id, id, .inl rfl, id, fun _ => ⟨rfl, rfl, rfl⟩⟩

/-! ### The choice upon it (R107, R108) -/

theorem chooseSlot_link (instant : Nat) (offer : Option (Option SpeedStep × StepFigures)) (s : State) :
    (chooseSlot instant offer s).link = { s.link with attention := (chooseSlot instant offer s).link.attention } := by
  rcases chooseSlot_cases instant offer s with he | ⟨-, ⟨r, -, he⟩ | ⟨-, p, o, x, -, -, -, he⟩ | ⟨-, hdue, he⟩⟩ <;> rw [he]
  · rfl
  · rfl
  · simp

/-- The choice arms the evaluated record or leaves it, and answers no request. -/
theorem referencePoint_chooses (instant : Nat) (s : State) :
    TripWritten (evaluate (atReference instant s)) (referencePoint instant s) ∧
      (referencePoint instant s).adm = (evaluate (atReference instant s)).adm ∧
      (referencePoint instant s).link = { (evaluate (atReference instant s)).link with
        attention := (referencePoint instant s).link.attention } := by
  rw [referencePoint_eq]
  refine ⟨chooseSlot_tripWritten fun o ho x hx => ?_, by simp, chooseSlot_link ..⟩
  rcases (evaluate_leaves (atReference instant s)).trip with ht | ht
  · exact admittedOffer_live ho x (ht.symm.trans hx)
  · rw [ht] at hx
    cases hx

theorem Evaluated.kept {s t u : State} {x : Trip} (h : Evaluated s t x) (hw : TripWritten t u) (hadm : u.adm = t.adm)
    (hlink : u.link = { t.link with attention := u.link.attention }) : Evaluated s u x := by
  have hstate : u.seq.state = t.seq.state := by rw [hw.seq]
  have haging : u.seq.agingTimer = t.seq.agingTimer := by rw [hw.seq]
  have hreason : u.link.reason = t.link.reason := by rw [hlink]
  have hdetail : u.link.detail = t.link.detail := by rw [hlink]
  obtain ⟨h1, h2, h3, h4, h5, h6, h7, h8, hdecided, hexceeds⟩ := h
  rw [Evaluated, hadm, hw.now, hstate, haging, hw.claimSlot, hw.presenceDue, hreason, hdetail]
  refine ⟨h1, h2, h3, h4, h5, h6, h7, h8, hdecided, fun h => ?_⟩
  obtain ⟨e1, e2, e3, e4, e5, e6, e7, e8, e9, e10, e11⟩ := hexceeds h
  have hnone : u.seq.trip = none := by rw [hw.kept (by simp [e1]), e1]
  exact ⟨hnone, e2, e3, e4, e5, e6, e7, e8, e9, e10, hw.attention e11⟩

/-- A reference point evaluates a PENDING record outside FALLBACK and ISOLATED (R46). -/
theorem referencePoint_evaluates {instant : Nat} {s : State} {x : Trip} (hx : s.seq.trip = some x)
    (hp : x.phase = .pending) (hf : s.seq.state ≠ .fallback) (hi : s.seq.state ≠ .isolated) :
    Evaluated s (referencePoint instant s) x ∧
      (referencePoint instant s).adm.conditions = conditionsRaised s := by
  obtain ⟨hw, hadm, hlink⟩ := referencePoint_chooses instant s
  rw [evaluate_pending (s := atReference instant s) hx hp hf hi] at hw hadm hlink
  obtain ⟨hevaluated, hconditions⟩ := evaluateTrip_evaluates (s := atReference instant s) hx
  refine ⟨Evaluated.kept hevaluated hw hadm hlink, ?_⟩
  rw [hadm, hconditions]
  rfl

theorem referencePoint_commitment (instant : Nat) (s : State) :
    (referencePoint instant s).seq.commitment = s.seq.commitment := by
  rw [(referencePoint_chooses instant s).1.seq, (evaluate_leaves (atReference instant s)).seq]
  rfl

theorem conditionsRaised_eq (s : State) :
    conditionsRaised s = { s.adm.conditions with
      stale := s.adm.conditions.stale || decide (∃ r ∈ s.roster.records, r.fresh = false)
      phantom := s.adm.conditions.phantom || decide (s.roster.records.length < (conf s).census - 1)
      saturate := s.adm.conditions.saturate || decide (motoringSum s = 65535 ∨ returningSum s = 65535) } := by
  have hstale : staleApplies s = decide (∃ r ∈ s.roster.records, r.fresh = false) := by
    rw [Bool.eq_iff_iff, staleApplies_iff, decide_eq_true_eq]
  have hphantom : phantomApplies s = decide (s.roster.records.length < (conf s).census - 1) := by
    rw [Bool.eq_iff_iff, phantomApplies_iff, decide_eq_true_eq]
  have hsaturate : (motoringSum s == Config.sumLimit || returningSum s == Config.sumLimit) =
      decide (motoringSum s = 65535 ∨ returningSum s = 65535) := by
    rw [Bool.eq_iff_iff, Bool.or_eq_true, beq_iff_eq, beq_iff_eq, decide_eq_true_eq]
    rfl
  rw [conditionsRaised, hstale, hphantom, hsaturate]

/-- Settles O16: the test by the rules, and its evaluation at a round close. -/
theorem admissionDecides : Obligations.AdmissionDecides := by
  constructor
  · rintro s x mpos gneg hmpos hgneg
    obtain rfl : motoringSum s = mpos := hmpos.symm
    obtain rfl : returningSum s = gneg := hgneg.symm
    exact ⟨rfl, rfl, fun f => searchSteps_wake, fun a b c d => searchSteps_run, decideTrip_byRules s x⟩
  · intro s since x hround hx hp hf hi
    obtain ⟨hevaluated, hconditions⟩ := referencePoint_evaluates (instant := (roundClosed since s).now)
      (s := roundClosed since s) hx hp hf hi
    refine ⟨_, execRoundClose_running hround, hevaluated, ?_, by simp [roundClosed], referencePoint_commitment ..,
      by simp [roundClosed], by simp [roundClosed], by simp [roundClosed], by simp [roundClosed]⟩
    rw [hconditions]
    exact conditionsRaised_eq s

end Sys2Proof.Machine
end

section
/-! An activity judged (R84, R88, R92): each check of the model in the words of R92, and the first that fails. -/

namespace Sys2Proof.Machine

/-! ### The length (R88, R92) -/

theorem kindLength_eq_some (code n : Nat) :
    kindLength code = some n ↔ (code = 1 ∧ n = 9) ∨ (code = 2 ∧ n = 13) ∨ (code = 3 ∧ n = 16) := by
  unfold kindLength
  split <;> simp_all [eq_comm]

theorem lengthRight_iff (u : LineUnit) :
    (u.octets.head?.bind fun b => kindLength (b.toNat / 16)) = some u.octetCount ↔ LengthRight u := by
  cases h : u.octets with
  | nil => simp [LengthRight, h]
  | cons first rest => simp [LengthRight, h, kindLength_eq_some]

/-! ### The CRC (R84) -/

theorem word16_eq_iff {n : Nat} (hn : n < 65536) (hi lo : Byte) :
    word16 n = [hi, lo] ↔ 256 * hi.toNat + lo.toNat = n := by
  have hhi := hi.isLt
  have hlo := lo.isLt
  simp only [word16, List.cons.injEq, and_true, ← BitVec.toNat_inj, octet_toNat]
  omega

theorem crcAgrees_append (before : List Byte) (hi lo : Byte) :
    crcAgrees (before ++ [hi, lo]) = true ↔ 256 * hi.toNat + lo.toNat = (crcOf before).toNat := by
  have hlength : (before ++ [hi, lo]).length - 2 = before.length := by simp
  rw [crcAgrees, hlength, List.take_left, List.drop_left, beq_iff_eq, eq_comm,
    word16_eq_iff (crcOf before).isLt]

theorem crcAgrees_iff (octets : List Byte) : crcAgrees octets = true ↔ CrcRight octets := by
  constructor
  · intro h
    have hdrop : octets.drop (octets.length - 2) = word16 (crcOf (octets.take (octets.length - 2))).toNat := by
      simpa [crcAgrees] using h
    have hsplit := List.take_append_drop (octets.length - 2) octets
    rw [hdrop] at hsplit
    refine ⟨_, _, _, hsplit.symm, ?_⟩
    exact (word16_eq_iff (crcOf _).isLt _ _).mp rfl
  · rintro ⟨before, hi, lo, rfl, h⟩
    exact (crcAgrees_append ..).mpr h

/-! ### The fields, kind by kind (R88, R92) -/

theorem number16_eq (hi lo : Byte) : number16 hi lo = 256 * hi.toNat + lo.toNat := by
  rw [number16, Nat.mul_comm]

/-- 8000 hex is the one draw that no message carries (R92). -/
theorem int16_least (hi lo : Byte) : int16 hi lo = -32768 ↔ 256 * hi.toNat + lo.toNat = 32768 := by
  have hhi := hi.isLt
  have hlo := lo.isLt
  unfold int16 number16
  split <;> omega

theorem reasonOfCode_isSome (n : Nat) : (reasonOfCode n).isSome = true ↔ 1 ≤ n ∧ n ≤ 6 := by
  unfold reasonOfCode
  split
  case h_7 =>
    simp only [imp_false] at *
    exact ⟨nofun, fun h => absurd h (by omega)⟩
  all_goals simp

theorem summaryOfCode_isSome (n : Nat) : (summaryOfCode n).isSome = true ↔ 1 ≤ n ∧ n ≤ 10 := by
  unfold summaryOfCode
  split
  case h_11 =>
    simp only [imp_false] at *
    exact ⟨nofun, fun h => absurd h (by omega)⟩
  all_goals simp

theorem readRelease_isSome (header station tag dh dl sh sl ch cl : Byte) :
    (readRelease [header, station, tag, dh, dl, sh, sl, ch, cl]).isSome = true ↔
      1 ≤ tag.toNat / 16 ∧ tag.toNat / 16 ≤ 6 ∧ 256 * dh.toNat + dl.toNat ≠ 32768 := by
  rw [← and_assoc, ← reasonOfCode_isSome, ne_eq, ← int16_least]
  cases hr : reasonOfCode (tag.toNat / 16) with
  | none => simp [readRelease, hr]
  | some reason => by_cases h : int16 dh dl = -32768 <;> simp [readRelease, hr, h]

theorem bitOf_getLsbD (b : Byte) (k : Nat) : bitOf b.toNat k = b.getLsbD k := by
  rw [bitOf, BitVec.getLsbD, Nat.testBit_eq_decide_div_mod_eq]
  rfl

theorem readClaim_isSome (cls : Nat) (header station tag nh nl sh sl th tl dh dl ch cl : Byte) :
    (readClaim cls [header, station, tag, nh, nl, sh, sl, th, tl, dh, dl, ch, cl]).isSome = true ↔
      tag.getLsbD 6 = false ∧ 256 * nh.toNat + nl.toNat ≠ 32768 ∧ 256 * sh.toNat + sl.toNat ≤ 32767 ∧
        256 * th.toNat + tl.toNat ≠ 0 ∧ 256 * dh.toNat + dl.toNat ≤ 32767 := by
  rw [← bitOf_getLsbD, ne_eq, ← int16_least]
  simp [readClaim, ← number16_eq, and_assoc]

theorem readPresence_isSome (header station summary flags mh ml dh dl gh gl th tl eh el ch cl : Byte) :
    (readPresence [header, station, summary, flags, mh, ml, dh, dl, gh, gl, th, tl, eh, el, ch, cl]).isSome = true ↔
      1 ≤ summary.toNat ∧ summary.toNat ≤ 10 ∧ flags.toNat < 16 ∧ 256 * mh.toNat + ml.toNat ≠ 32768 ∧
        256 * dh.toNat + dl.toNat ≤ 32767 ∧ 256 * gh.toNat + gl.toNat ≤ 32767 ∧
        (flags.getLsbD 3 = true → 256 * eh.toNat + el.toNat ≠ 32768) := by
  rw [← and_assoc, ← summaryOfCode_isSome, ← bitOf_getLsbD, ne_eq, ne_eq, ← int16_least, ← int16_least]
  cases hs : summaryOfCode summary.toNat with
  | none => simp [readPresence, hs]
  | some st => simp [readPresence, hs, ← number16_eq, and_assoc]

/-! ### The message read (R88, R92) -/

/-- The reading of the body by the header's kind and class. -/
def readBody (header : Byte) (octets : List Byte) : Option Body :=
  let cls := header.toNat / 2 % 8
  match header.toNat / 16 with
  | 1 => if cls = 0 then readRelease octets else none
  | 2 => if 1 ≤ cls ∧ cls ≤ 5 then readClaim cls octets else none
  | 3 => if cls = 6 then readPresence octets else none
  | _ => none

theorem readMessage_isSome (header station : Byte) (rest : List Byte) :
    (readMessage (header :: station :: rest)).isSome = true ↔
      header.toNat % 2 = 0 ∧ 1 ≤ station.toNat ∧ station.toNat ≤ 62 ∧
        (readBody header (header :: station :: rest)).isSome = true := by
  have hread : readMessage (header :: station :: rest) = if header.toNat % 2 ≠ 0 then none
      else if station.toNat = 0 ∨ 62 < station.toNat then none
      else (readBody header (header :: station :: rest)).map fun b => { station := station.toNat, body := b } := rfl
  rw [hread]
  by_cases h0 : header.toNat % 2 = 0
  case neg => simp [h0]
  by_cases hs : station.toNat = 0 ∨ 62 < station.toNat
  · have hs' : ¬(1 ≤ station.toNat ∧ station.toNat ≤ 62) := by omega
    simp only [h0, ne_eq, not_true, if_false, if_pos hs, ← and_assoc (a := 1 ≤ _), hs', false_and, and_false]
    simp
  · have hs' : 1 ≤ station.toNat ∧ station.toNat ≤ 62 := by omega
    simp [h0, hs, hs']

theorem readBody_isSome (header : Byte) (octets : List Byte) :
    (readBody header octets).isSome = true ↔
      (header.toNat / 16 = 1 ∧ header.toNat / 2 % 8 = 0 ∧ (readRelease octets).isSome = true) ∨
      (header.toNat / 16 = 2 ∧ (1 ≤ header.toNat / 2 % 8 ∧ header.toNat / 2 % 8 ≤ 5) ∧
        (readClaim (header.toNat / 2 % 8) octets).isSome = true) ∨
      (header.toNat / 16 = 3 ∧ header.toNat / 2 % 8 = 6 ∧ (readPresence octets).isSome = true) := by
  unfold readBody
  dsimp only
  split
  · rename_i hk
    split <;> simp_all
  · rename_i hk
    split <;> simp_all
  · rename_i hk
    split <;> simp_all
  · simp_all

theorem readRelease_octets {octets : List Byte} (h : (readRelease octets).isSome = true) :
    ∃ header station tag dh dl sh sl ch cl : Byte, octets = [header, station, tag, dh, dl, sh, sl, ch, cl] := by
  unfold readRelease at h
  split at h
  · exact ⟨_, _, _, _, _, _, _, _, _, rfl⟩
  · cases h

theorem readClaim_octets {cls : Nat} {octets : List Byte} (h : (readClaim cls octets).isSome = true) :
    ∃ header station tag nh nl sh sl th tl dh dl ch cl : Byte,
      octets = [header, station, tag, nh, nl, sh, sl, th, tl, dh, dl, ch, cl] := by
  unfold readClaim at h
  split at h
  · exact ⟨_, _, _, _, _, _, _, _, _, _, _, _, _, rfl⟩
  · cases h

theorem readPresence_octets {octets : List Byte} (h : (readPresence octets).isSome = true) :
    ∃ header station summary flags mh ml dh dl gh gl th tl eh el ch cl : Byte,
      octets = [header, station, summary, flags, mh, ml, dh, dl, gh, gl, th, tl, eh, el, ch, cl] := by
  unfold readPresence at h
  split at h
  · exact ⟨_, _, _, _, _, _, _, _, _, _, _, _, _, _, _, _, rfl⟩
  · cases h

theorem FieldsRight.of_read {header station : Byte} {rest : List Byte}
    (h : (readMessage (header :: station :: rest)).isSome = true) : FieldsRight (header :: station :: rest) := by
  rw [readMessage_isSome, readBody_isSome] at h
  obtain ⟨heven, hfirst, hlast, ⟨hkind, hcls, hread⟩ | ⟨hkind, hcls, hread⟩ | ⟨hkind, hcls, hread⟩⟩ := h
  · obtain ⟨header', station', tag, dh, dl, sh, sl, ch, cl, he⟩ := readRelease_octets hread
    obtain ⟨rfl, rfl, rfl⟩ : header = header' ∧ station = station' ∧ rest = _ := by simpa using he
    obtain ⟨h1, h2, h3⟩ := (readRelease_isSome ..).mp hread
    exact .inl ⟨_, _, tag, dh, dl, sh, sl, ch, cl, rfl, by omega, hfirst, hlast, h1, h2, h3⟩
  · obtain ⟨header', station', tag, nh, nl, sh, sl, th, tl, dh, dl, ch, cl, he⟩ := readClaim_octets hread
    obtain ⟨rfl, rfl, rfl⟩ : header = header' ∧ station = station' ∧ rest = _ := by simpa using he
    exact .inr (.inl ⟨_, _, tag, nh, nl, sh, sl, th, tl, dh, dl, ch, cl, rfl,
      ⟨header.toNat / 2 % 8, hcls.1, hcls.2, by omega⟩, hfirst, hlast, (readClaim_isSome ..).mp hread⟩)
  · obtain ⟨header', station', summary, flags, mh, ml, dh, dl, gh, gl, th, tl, eh, el, ch, cl, he⟩ :=
      readPresence_octets hread
    obtain ⟨rfl, rfl, rfl⟩ : header = header' ∧ station = station' ∧ rest = _ := by simpa using he
    exact .inr (.inr ⟨_, _, summary, flags, mh, ml, dh, dl, gh, gl, th, tl, eh, el, ch, cl, rfl, by omega, hfirst, hlast,
      (readPresence_isSome ..).mp hread⟩)

theorem FieldsRight.read {octets : List Byte} (h : FieldsRight octets) : (readMessage octets).isSome = true := by
  rcases h with ⟨header, station, tag, dh, dl, sh, sl, ch, cl, rfl, hheader, hfirst, hlast, h1, h2, h3⟩ |
    ⟨header, station, tag, nh, nl, sh, sl, th, tl, dh, dl, ch, cl, rfl, ⟨cls, hc1, hc5, hheader⟩, hfirst, hlast, hfields⟩ |
    ⟨header, station, summary, flags, mh, ml, dh, dl, gh, gl, th, tl, eh, el, ch, cl, rfl, hheader, hfirst, hlast, hfields⟩
  all_goals rw [readMessage_isSome, readBody_isSome]
  · exact ⟨by omega, hfirst, hlast, .inl ⟨by omega, by omega, (readRelease_isSome ..).mpr ⟨h1, h2, h3⟩⟩⟩
  · exact ⟨by omega, hfirst, hlast, .inr (.inl ⟨by omega, by omega, (readClaim_isSome ..).mpr hfields⟩)⟩
  · exact ⟨by omega, hfirst, hlast, .inr (.inr ⟨by omega, by omega, (readPresence_isSome ..).mpr hfields⟩)⟩

theorem fieldsRight_iff (octets : List Byte) : (readMessage octets).isSome = true ↔ FieldsRight octets := by
  refine ⟨fun h => ?_, FieldsRight.read⟩
  match octets with
  | [] => cases h
  | [_] => cases h
  | header :: station :: rest => exact .of_read h

/-! ### The five checks in their order (R92) -/

/-- Past the first four checks the fields decide. -/
theorem judgeActivity_read {u : LineUnit} (hlong : u.longMark = false) (hframe : u.frameMark = false)
    (hlength : LengthRight u) (hcrc : CrcRight u.octets) :
    judgeActivity u = (readMessage u.octets).elim (.error .field) .ok := by
  rw [← lengthRight_iff] at hlength
  rw [← crcAgrees_iff] at hcrc
  simp only [judgeActivity, hlong, hframe, hlength, hcrc, Bool.false_eq_true, if_false, ne_eq, not_true,
    Bool.not_true]
  cases readMessage u.octets <;> rfl

theorem judgeActivity_fails {u : LineUnit} {k : LineError} (h : FailsWith u k) : judgeActivity u = .error k := by
  cases k with
  | none => cases h
  | longDominant =>
    have hlong : u.longMark = true := h
    rw [judgeActivity, if_pos hlong]
  | frame =>
    obtain ⟨hlong, hframe⟩ := h
    rw [judgeActivity, hlong, if_neg Bool.false_ne_true, if_pos hframe]
  | length =>
    obtain ⟨hlong, hframe, hlength⟩ := h
    rw [← lengthRight_iff] at hlength
    rw [judgeActivity, hlong, hframe, if_neg Bool.false_ne_true, if_neg Bool.false_ne_true, if_pos hlength]
  | crc =>
    obtain ⟨hlong, hframe, hlength, hcrc⟩ := h
    rw [← lengthRight_iff] at hlength
    rw [← crcAgrees_iff, Bool.not_eq_true] at hcrc
    rw [judgeActivity, hlong, hframe, hcrc, if_neg Bool.false_ne_true, if_neg Bool.false_ne_true,
      if_neg (not_not.mpr hlength)]
    rfl
  | field =>
    obtain ⟨hlong, hframe, hlength, hcrc, hfields⟩ := h
    rw [← fieldsRight_iff, Bool.not_eq_true, Option.isSome_eq_false_iff, Option.isNone_iff_eq_none] at hfields
    rw [judgeActivity_read hlong hframe hlength hcrc, hfields]
    rfl

/-- An activity that passes all five checks is a valid message (R92). -/
theorem judgeActivity_passes {u : LineUnit} (h : ∀ k, ¬FailsWith u k) : ∃ m, judgeActivity u = .ok m := by
  have hlong : u.longMark = false := Bool.not_eq_true _ ▸ h .longDominant
  have hframe : u.frameMark = false := Bool.eq_false_iff.mpr fun hf => h .frame ⟨hlong, hf⟩
  have hlength : LengthRight u := by_contra fun hn => h .length ⟨hlong, hframe, hn⟩
  have hcrc : CrcRight u.octets := by_contra fun hn => h .crc ⟨hlong, hframe, hlength, hn⟩
  have hfields : FieldsRight u.octets := by_contra fun hn => h .field ⟨hlong, hframe, hlength, hcrc, hn⟩
  obtain ⟨m, hm⟩ := Option.isSome_iff_exists.mp ((fieldsRight_iff _).mpr hfields)
  exact ⟨m, by rw [judgeActivity_read hlong hframe hlength hcrc, hm]; rfl⟩

end Sys2Proof.Machine
end

section
/-!
An invalid activity (R92, R94): the error noted, the reference point at its end with the choice that this makes (R100, R107); and
from these O12.
-/

namespace Sys2Proof.Machine

/-! ### The choice at a reference point (R103, R104, R107, R108) -/

theorem chooseSlot_idle {s : State} (h : mayChoose s = false) (instant : Nat)
    (offer : Option (Option SpeedStep × StepFigures)) : chooseSlot instant offer s = s := by
  simp only [chooseSlot, h, Bool.false_eq_true, if_false]

theorem chooseSlot_release {s : State} {r : Release} (hm : mayChoose s = true) (hr : s.con.releaseSlot = some r)
    (instant : Nat) (offer : Option (Option SpeedStep × StepFigures)) :
    chooseSlot instant offer s = beginAttempt instant (.release r) s := by
  simp only [chooseSlot, hm, if_true, hr]

/-- With no RELEASE posted and no CLAIM to choose, a PRESENCE may be chosen (R107). -/
theorem chooseSlot_presence {s : State} {instant : Nat} {offer : Option (Option SpeedStep × StepFigures)}
    (hm : mayChoose s = true) (hr : s.con.releaseSlot = none) (hn : s.con.claimSlot = none ∨ offer = none) :
    chooseSlot instant offer s = choosePresence instant s := by
  rcases hn with hn | hn <;> simp [chooseSlot, hm, hr, hn]

theorem choosePresence_none {s : State} (instant : Nat) (h : s.con.presenceDue = false) :
    choosePresence instant s = s := by
  simp [choosePresence, h]

theorem choosePresence_seq (instant : Nat) (s : State) : (choosePresence instant s).seq = s.seq := by simp

theorem choosePresence_adm (instant : Nat) (s : State) : (choosePresence instant s).adm = s.adm := by simp

theorem admittedOffer_outcome {s : State} {o : Option SpeedStep × StepFigures} (h : admittedOffer s = some o) :
    ∃ x, s.seq.trip = some x ∧ (decideTrip s x).outcome = .admitted := by
  unfold admittedOffer at h
  split at h
  · rename_i x hx
    split at h
    · exact ⟨x, hx, decideTrip_offer h⟩
    · cases h
  · cases h

section
variable {instant : Nat} {s : State}

/-- Where a choice may be made before the evaluation, one may be made after it (R107). -/
theorem mayChoose_evaluate (h : mayChoose s = true) : mayChoose (evaluate (atReference instant s)) = true := by
  obtain ⟨hopen, hspoken, hdriving, hattempt⟩ := (mayChoose_iff s).mp h
  refine (mayChoose_iff _).mpr ⟨?_, ?_, (evaluate_leaves (atReference instant s)).driving hdriving, ?_⟩
  · simpa [atReference] using hopen
  · simpa [atReference] using hspoken
  · simpa [atReference] using hattempt

theorem referencePoint_release {r : Release} (hm : mayChoose s = true) (hr : s.con.releaseSlot = some r) :
    referencePoint instant s = beginAttempt instant (.release r) (evaluate (atReference instant s)) := by
  have hcon := (evaluate_leaves (atReference instant s)).con
  exact chooseSlot_release (mayChoose_evaluate hm) (by rw [hcon]; exact hr) ..

theorem referencePoint_presence (hm : mayChoose s = true) (hr : s.con.releaseSlot = none)
    (hn : s.con.claimSlot = none ∨ ∀ x, s.seq.trip = some x → (decideTrip s x).outcome ≠ .admitted) :
    referencePoint instant s = choosePresence instant (evaluate (atReference instant s)) := by
  have hleaves := evaluate_leaves (atReference instant s)
  rw [referencePoint_eq]
  refine chooseSlot_presence (mayChoose_evaluate hm) (by rw [hleaves.con]; exact hr) ?_
  refine hn.imp hleaves.claimSlot fun hn => ?_
  by_contra hoffer
  obtain ⟨o, ho⟩ := Option.ne_none_iff_exists'.mp hoffer
  obtain ⟨x, hx, hadmitted⟩ := admittedOffer_outcome ho
  exact hn x hx hadmitted

/-- The choice at a reference point of an open round with nothing spoken is what R107 gives. -/
theorem referencePoint_chosen (hm : mayChoose s = true) : Chosen instant s (referencePoint instant s) := by
  have hleaves := evaluate_leaves (atReference instant s)
  have hseq := hleaves.seq
  refine ⟨fun r hr => ?_, fun x p v f hr hx hp hpost hd => ?_, fun hr hn => ⟨fun hdue => ?_, fun hne => ?_⟩⟩
  · rw [referencePoint_release hm hr]
    refine ⟨rfl, ?_, ?_, ?_⟩
    · simp [keyOf, Body.cls, atReference]
    · simp [keyOf, Body.cls, atReference, slotWait, Config.bitTime]
    · show (evaluate (atReference instant s)).con.releaseSlot = some r
      rw [hleaves.con]
      exact hr
  · obtain ⟨u, hu, hpoint⟩ := referencePoint_admits (instant := instant) hm hr hpost hx hp hd
    rw [hpoint, hu.frame]
    exact ⟨rfl, rfl, rfl, rfl, hpost, rfl⟩
  · rw [referencePoint_presence hm hr hn, choosePresence_due instant (hleaves.due hdue)]
    refine ⟨?_, ?_, hleaves.due hdue, rfl, ?_⟩
    · simp [keyOf, Body.cls, atReference]
    · simp [keyOf, Body.cls, atReference, slotWait, Config.bitTime]
    · have hconf : conf (evaluate (atReference instant s)) = conf s := by simp [conf, atReference]
      have hselected : (evaluate (atReference instant s)).seq.serviceSelected = s.seq.serviceSelected := by
        rw [hseq]
        rfl
      have hlockout : (evaluate (atReference instant s)).seq.lockout = s.seq.lockout := by
        rw [hseq]
        rfl
      have hcommitment : (evaluate (atReference instant s)).seq.commitment = s.seq.commitment := by
        rw [hseq]
        rfl
      have hstamp : (evaluate (atReference instant s)).seq.stamp = s.seq.stamp := by
        rw [hseq]
        rfl
      rw [← hselected, ← hlockout, ← hcommitment, ← hstamp, ← hconf]
      rfl
  · obtain ⟨hsame, hcon, hdemand⟩ := hleaves.unexceeded hne
    rw [referencePoint_presence hm hr hn]
    refine ⟨?_, ?_, fun hdue => ?_⟩
    · rw [(choosePresence_seq ..), hsame]
      rfl
    · rw [(choosePresence_adm ..), hdemand]
      rfl
    · rw [choosePresence_none instant (by rw [hcon]; exact hdue), hcon]
      exact ⟨((mayChoose_iff s).mp hm).2.2.2, hdue⟩

/-- With no record there is nothing to evaluate or to arm. -/
theorem referencePoint_tripless (h : s.seq.trip = none) :
    (referencePoint instant s).seq = s.seq ∧ (referencePoint instant s).adm = s.adm := by
  obtain ⟨hw, hadm, -⟩ := referencePoint_chooses instant s
  rw [evaluate_none (atReference instant s) h] at hw hadm
  have htrip : (referencePoint instant s).seq.trip = s.seq.trip :=
    hw.kept fun x hx => by rw [show (atReference instant s).seq.trip = none from h] at hx; cases hx
  refine ⟨?_, hadm⟩
  rw [hw.seq, htrip]
  rfl

/-- Where no choice may be made the attempt in hand stands (R100, R101, R102). -/
theorem referencePoint_attempt
    (h : s.con.roundOpen = false ∨ s.con.spoken = true ∨ (s.seq.state.driving = false ∧ s.seq.trip = none)) :
    (referencePoint instant s).con.attempt = s.con.attempt := by
  have hattempt : (evaluate (atReference instant s)).con.attempt = s.con.attempt := by simp [atReference]
  have hidle : mayChoose (evaluate (atReference instant s)) = false := by
    rw [← Bool.not_eq_true, mayChoose_iff]
    rintro ⟨hopen, hspoken, hdriving, -⟩
    rcases h with h | h | ⟨hd, hnone⟩
    · simp [atReference, h] at hopen
    · simp [atReference, h] at hspoken
    · rw [evaluate_none (atReference instant s) hnone] at hdriving
      rw [show (atReference instant s).seq.state.driving = false from hd] at hdriving
      cases hdriving
  rw [referencePoint_eq, chooseSlot_idle hidle, hattempt]

end

/-! ### The error noted (R94) -/

/-- The error is the last one and LINE is raised; nothing else is written (R43, R94). -/
theorem lineError_configured {s : State} (hc : configured s = true) (k : LineError) :
    OnlyRaised { s with line := { s.line with lastError := k } } (lineError k s) ∧
      (lineError k s).adm.conditions.line = true := by
  have hraise := raiseIf_onlyRaised true .line { s with line := { s.line with lastError := k } }
  rw [lineError, if_pos hc]
  exact ⟨hraise, by rw [raise_conditions]; rfl⟩

theorem OnlyRaised.evaluated {s v t : State} {x : Trip} (h : OnlyRaised s v) (he : Evaluated v t x) :
    Evaluated s t x := by
  rw [h.frame] at he
  exact he

theorem OnlyRaised.chosen {s v t : State} {instant : Nat} (h : OnlyRaised s v) (hc : Chosen instant v t) :
    Chosen instant s t := by
  rw [h.frame] at hc
  exact hc

/-- The end of an activity that fails a check: the error, then the reference point (R92, R93, R94). -/
theorem execEndOfActivity_invalid {s : State} {changes : List LineChange} {reference : Nat} {u : LineUnit}
    {k : LineError} (hactive : s.line.active = true) (hconfigured : configured s = true)
    (hidle : s.line.transmitter = none) (hend : s.line.recognised changes = some (reference, u))
    (hfails : FailsWith u k) :
    execEndOfActivity changes s = .next (referencePoint reference (lineError k (activityEnded reference u s))) := by
  have hquiet : (activityEnded reference u s).line.transmitter = none := by
    obtain ⟨-, htransmitter, -⟩ := LineUnit.recognised_keeps hend
    exact htransmitter.trans hidle
  have hconf : configured (activityEnded reference u s) = true := hconfigured
  have hsettle : settleActivity u (activityEnded reference u s) = lineError k (activityEnded reference u s) := by
    simp only [settleActivity, hquiet, judgeAndDeliver, hconf, judgeActivity_fails hfails]
    rfl
  rw [execEndOfActivity, if_pos hactive, hend, ← hsettle]
  rfl

/-- Settles O12: the error noted, then the reference point, whose evaluation and choice are those of the state before. -/
theorem invalidActivityIsDiscarded : Obligations.InvalidActivityIsDiscarded := by
  refine ⟨?_, fun u k => judgeActivity_fails, fun u => judgeActivity_passes⟩
  intro s changes reference u k hactive hconfigured hidle hend hfails
  obtain ⟨hraised, hline⟩ := lineError_configured (s := activityEnded reference u s) hconfigured k
  have hview : (lineError k (activityEnded reference u s)).adm.view = s.adm.view := by rw [hraised.frame]; rfl
  have hlineUnit : (lineError k (activityEnded reference u s)).line = { u.quiet with lastError := k } := by
    rw [hraised.frame]
    rfl
  have hseq : (lineError k (activityEnded reference u s)).seq = s.seq := by simp [activityEnded]
  have hcon : (lineError k (activityEnded reference u s)).con = s.con := by simp [activityEnded]
  obtain ⟨-, hadm, -⟩ := referencePoint_chooses reference (lineError k (activityEnded reference u s))
  have hlineKept := (evaluate_leaves (atReference reference (lineError k (activityEnded reference u s)))).line hline
  refine ⟨_, execEndOfActivity_invalid hactive hconfigured hidle hend hfails, ?_, ?_, by rw [hadm]; exact hlineKept,
    by simp [activityEnded], by simp [activityEnded], by simp [activityEnded], by simp [activityEnded],
    (referencePoint_kept ..).2, ?_, by simp [activityEnded], by simp [activityEnded], fun hnone => ?_,
    fun x hx hp hf hi => ?_, fun hattempt hopen hspoken hdriving => ?_, fun h => ?_⟩
  · simp [hlineUnit]
  · simp [hlineUnit]
  · simp only [referencePoint_keeps, lineError_keeps]
    rfl
  · obtain ⟨hseq', hadm'⟩ := referencePoint_tripless (instant := reference)
      (s := lineError k (activityEnded reference u s)) (by rw [hseq]; exact hnone)
    exact ⟨by rw [hadm', hview], hseq'.trans hseq⟩
  · have hevaluated := (referencePoint_evaluates (instant := reference)
      (s := lineError k (activityEnded reference u s)) (by rw [hseq]; exact hx) hp (by rwa [hseq]) (by rwa [hseq])).1
    exact hraised.evaluated hevaluated
  · have hm : mayChoose (lineError k (activityEnded reference u s)) = true := by
      rw [mayChoose_iff, hseq, hcon]
      exact ⟨hopen, hspoken, hdriving, hattempt⟩
    exact hraised.chosen (referencePoint_chosen hm)
  · rw [referencePoint_attempt (by rwa [hseq, hcon]), hcon]

end Sys2Proof.Machine
end

section
/-!
TRIP-CANCEL (R144, R160, R115): the record that decides, a CLAIM withdrawn, a completion taken back; and from these O34.
-/

namespace Sys2Proof.Machine

/-! ### The record that decides (R144, R160) -/

theorem exec_tripCancel {s : State} (h : Taking s) (tripId : Byte) :
    exec (.tripCancel tripId) s = .next (respond (judgeTripCancel tripId (requestTaken s)).2
      (judgeTripCancel tripId (requestTaken s)).1) := by
  simp only [exec, execTripCancel, takeRequest_taking h]

theorem cancelByRecord_none {s : State} (h : s.seq.trip = none) (tripId : Byte) :
    cancelByRecord tripId s = refuse .noTrip tripId.toNat s := by
  simp only [cancelByRecord, h]

section
variable {s : State} {tripId : Byte} {x : Trip}

theorem cancelByRecord_noTrip (hx : s.seq.trip = some x) (h : x.phase = .ending ∨ namesTrip tripId x.id = false) :
    cancelByRecord tripId s = refuse .noTrip tripId.toNat s := by
  simp only [cancelByRecord, hx, if_pos h]

theorem cancelByRecord_running (hx : s.seq.trip = some x) (hn : namesTrip tripId x.id = true)
    (hp : x.phase = .running) : cancelByRecord tripId s = refuse .tripActive x.id.val s := by
  simp [cancelByRecord, hx, hn, hp]

theorem cancelByRecord_sending (hx : s.seq.trip = some x) (hn : namesTrip tripId x.id = true) (hp : x.phase = .armed)
    (ha : s.con.attempt.isSending .claim = true) : cancelByRecord tripId s = (cancelSending x s, .held x.id) := by
  simp [cancelByRecord, hx, hn, hp, ha]

theorem cancelByRecord_now (hx : s.seq.trip = some x) (hn : namesTrip tripId x.id = true)
    (hp : x.phase = .pending ∨ x.phase = .armed) (ha : s.con.attempt.isSending .claim = false) :
    cancelByRecord tripId s = acceptWithState (cancelNow x s) := by
  rcases hp with hp | hp <;> simp [cancelByRecord, hx, hn, hp, ha]

theorem cancelInFallback_none (h : s.seq.trip = none) : cancelInFallback tripId s = refuse .noTrip tripId.toNat s := by
  simp only [cancelInFallback, h]

theorem cancelInFallback_running (hx : s.seq.trip = some x) (hp : x.phase = .running) :
    cancelInFallback tripId s = refuse .tripActive x.id.val s := by
  simp only [cancelInFallback, hx, if_pos hp]

theorem cancelInFallback_pending (hx : s.seq.trip = some x) (hp : x.phase = .pending)
    (hn : namesTrip tripId x.id = true) : cancelInFallback tripId s = acceptWithState (endTrip s) := by
  simp [cancelInFallback, hx, hp, hn]

theorem cancelInFallback_noTrip (hx : s.seq.trip = some x) (hp : x.phase ≠ .running)
    (h : ¬(x.phase = .pending ∧ namesTrip tripId x.id = true)) :
    cancelInFallback tripId s = refuse .noTrip tripId.toNat s := by
  simp only [cancelInFallback, hx, if_neg hp, if_neg h]

/-! ### A completion of this very instant (R115, log 45) -/

theorem completedNow_iff : completedNow tripId s = some x ↔ CompletedNow s tripId x := by
  unfold completedNow CompletedNow
  cases hl : s.seq.lastClaim with
  | none => simp
  | some c =>
    obtain ⟨y, instant⟩ := c
    simp only [Option.some.injEq, CompletedClaim.mk.injEq]
    constructor
    · intro he
      split at he
      · rename_i h
        obtain rfl : y = x := by simpa using he
        exact ⟨h.2, rfl, h.1⟩
      · cases he
    · rintro ⟨hn, rfl, hi⟩
      rw [if_pos ⟨hi, hn⟩]

/-- While a record is in hand, only its run can be the completion that stands (R135, R136). -/
theorem completionStands_running {y : Trip} (hx : s.seq.trip = some x) (h : completionStands y s = true) :
    x.id = y.id ∧ x.phase = .running := by
  unfold completionStands at h
  split at h
  · simpa [hx] using h
  · simp [hx] at h

theorem judgeTripCancel_isolated (h : s.seq.state = .isolated) :
    judgeTripCancel tripId s = refuse .isolated 0 s := by
  simp only [judgeTripCancel, h]

theorem judgeTripCancel_fallback (h : s.seq.state = .fallback) :
    judgeTripCancel tripId s = cancelInFallback tripId s := by
  simp only [judgeTripCancel, h]

/-- Where no completion of this instant stands, and none has left the car without a record, the record decides. -/
theorem judgeTripCancel_byRecord (hi : s.seq.state ≠ .isolated) (hf : s.seq.state ≠ .fallback)
    (h : ∀ y, CompletedNow s tripId y → completionStands y s = false ∧ s.seq.trip ≠ none) :
    judgeTripCancel tripId s = cancelByRecord tripId s := by
  unfold judgeTripCancel
  split
  · exact absurd ‹_› hi
  · exact absurd ‹_› hf
  · split
    · rename_i y hy
      obtain ⟨hstands, hsome⟩ := h y (completedNow_iff.mp hy)
      rw [hstands, if_neg Bool.false_ne_true, if_neg hsome]
    · rfl

theorem judgeTripCancel_completed (hi : s.seq.state ≠ .isolated) (hf : s.seq.state ≠ .fallback)
    (h : CompletedNow s tripId x) (hs : completionStands x s = true ∨ s.seq.trip = none) :
    judgeTripCancel tripId s =
      (if completionStands x s then cancelCompleted x s else s, .check .tooLate x.id.val) := by
  unfold judgeTripCancel
  split
  · exact absurd ‹_› hi
  · exact absurd ‹_› hf
  · rw [completedNow_iff.mpr h]
    dsimp only
    by_cases hstands : completionStands x s = true
    · rw [if_pos hstands, if_pos hstands]
    · rw [if_neg hstands, if_neg hstands, if_pos (hs.resolve_left hstands)]
      rfl

theorem judgeTripCancel_linkElse (tripId : Byte) (s : State) : LinkElse s (judgeTripCancel tripId s).1 := by
  have hrecord : LinkElse s (cancelByRecord tripId s).1 := by
    unfold cancelByRecord
    repeat' split
    all_goals simp [LinkElse, refuse, acceptWithState]
  unfold judgeTripCancel
  split
  · exact ⟨rfl, rfl, rfl, rfl⟩
  · unfold cancelInFallback
    repeat' split
    all_goals simp [LinkElse, refuse, acceptWithState]
  · split
    · split
      · simp [LinkElse]
      · split
        · exact ⟨rfl, rfl, rfl, rfl⟩
        · exact hrecord
    · exact hrecord

end

/-! ### The CLAIM withdrawn (R115) -/

/-- A CLAIM that is not being sent leaves its slot, and its attempt is abandoned (R110, R115). -/
theorem withdrawClaim_lost {s : State} (h : s.con.attempt.isSending .claim = false) :
    ∃ u, AttemptLost s u ∧ u.con.attempt.serves .claim = false ∧
      (s.con.attempt.isWaiting .claim = false → u = s) ∧
      withdrawClaim s = { u with con := { u.con with claimSlot := none } } := by
  by_cases hw : s.con.attempt.isWaiting .claim = true
  · refine ⟨abandonAttempt s, abandonAttempt_lost s, ?_, fun hn => by simp [hw] at hn, ?_⟩
    · obtain ⟨b, hb⟩ : ∃ b, s.con.attempt = .waiting b := by
        unfold Attempt.isWaiting at hw
        split at hw
        · exact ⟨_, ‹_›⟩
        · cases hw
      rw [((abandonAttempt_abandoned s).1 b hb).1]
      rfl
    · simp only [withdrawClaim, h, hw, Bool.false_eq_true, if_false, if_true]
  · refine ⟨s, .refl s, ?_, fun _ => rfl, ?_⟩
    · cases ha : s.con.attempt with
      | none => rfl
      | waiting b => simpa [ha, Attempt.isWaiting, Attempt.serves] using hw
      | sending b => simpa [ha, Attempt.isSending, Attempt.serves] using h
    · simp only [withdrawClaim, h, hw, Bool.false_eq_true, if_false]

/-- The record NONE with its timers stopped and its demand withdrawn; ATTENTION where there was a record (R54, R59, R134). -/
def tripEnded (s : State) : State :=
  { s with
    seq := { s.seq with trip := none, agingTimer := .stopped }
    adm := { s.adm with patience := .stopped, ownDemand := none }
    link := { s.link with attention := s.link.attention || s.seq.trip.isSome } }

theorem endTrip_ended (s : State) : endTrip s = tripEnded s := by
  cases h : s.seq.trip with
  | none => simp [endTrip, tripEnded, h]
  | some x => rw [endTrip_some h, tripEnded, h, Option.isSome_some, Bool.or_true]

theorem cancelNow_eq {s : State} {x : Trip} (hx : s.seq.trip = some x) (ha : s.con.attempt.isSending .claim = false) :
    ∃ u, AttemptLost s u ∧ u.con.attempt.serves .claim = false ∧
      (s.con.attempt.isWaiting .claim = false → u = s) ∧
      cancelNow x s = returned x.origin { s with
        seq := { s.seq with trip := none, agingTimer := .stopped }
        adm := { s.adm with patience := .stopped, ownDemand := none }
        con := { u.con with claimSlot := none }
        link := { s.link with attention := true } } := by
  obtain ⟨u, hu, hserves, hsame, he⟩ := withdrawClaim_lost ha
  have hsome : u.seq.trip.isSome = true := by
    have hid := hu.tripId
    rw [hx] at hid
    cases ht : u.seq.trip with
    | none => simp [ht] at hid
    | some y => rfl
  refine ⟨u, hu, hserves, hsame, ?_⟩
  rw [cancelNow, he, endTrip_ended, returnToOrigin_eq, tripEnded]
  simp only [hsome, Bool.or_true]
  rw [hu.frame]

/-! ### A completion taken back (R144, R155, log 45) -/

/-- The car as the end of a completed CLAIM finds it: no timer of the state entered goes on, and a car asked to shed owes its shed
(R155). -/
def completionUndone (runp : Bool) (spd : SpeedStep) (s : State) : State :=
  { s with seq := { s.seq with
    runp := runp, spd := spd, runTimer := .stopped, dwellTimer := .stopped, idleTimer := .stopped
    shedOwed := s.seq.shedOwed || s.seq.state == .shedPending } }

theorem cancelCompleted_run {s : State} {x : Trip} (h : ∃ a b c d, x.figures = .run a b c d) :
    cancelCompleted x s = endCancelled true x (completionUndone false .p25 s) := by
  obtain ⟨a, b, c, d, h⟩ := h
  simp only [cancelCompleted, h]
  rfl

theorem cancelCompleted_wake {s : State} {x : Trip} (h : ∃ f, x.figures = .wake f) :
    cancelCompleted x s = endCancelled true x (completionUndone s.seq.runp s.seq.spd s) := by
  obtain ⟨f, h⟩ := h
  simp only [cancelCompleted, h]
  rfl

end Sys2Proof.Machine
end

section
/-!
A completion taken back (R144, R155, log 45), the clauses of a TRIP-CANCEL, and from these O34.
-/

namespace Sys2Proof.Machine

/-! ### The outcome of a completion taken back (R144, R155) -/

theorem linkReady_reply {s : State} (h : linkReady s = true) : s.link.reply = .none := by
  simp only [linkReady, Bool.and_eq_true, beq_iff_eq] at h
  obtain ⟨⟨-, hreply⟩, -⟩ := h
  exact hreply

theorem answerHeld_none {s : State} (h : s.link.reply = .none) (a : Answer) : answerHeld a s = s := by
  simp only [answerHeld, h]

/-- The RELEASE of a trip cancelled, to the standing held before (R144). -/
def cancelledRelease (x : Trip) (p : Standing) : Release :=
  { reason := .cancelled, tripId := x.id, draw := p.draw, stamp := if p.draw = 0 then 0 else p.stamp }

/-- The car back in the state of an origin, with no record, nothing owed, this shed hold and this contention unit. -/
def tripTakenBack (o : Origin) (hold : ShedHold) (c : ContentionUnit) (attention : Bool) (s : State) : State :=
  returned o { s with
    seq := { s.seq with trip := none, agingTimer := .stopped, shedOwed := false, shedHold := hold }
    adm := { s.adm with patience := .stopped, ownDemand := none }
    con := c
    link := { s.link with attention := attention } }

/-- A contention unit after this RELEASE was posted: beside its slot at most a WAITING attempt was lost and PRESENCE marked. -/
def ReleaseIn (r : Release) (c d : ContentionUnit) : Prop :=
  d = { c with
    attempt := d.attempt, key := d.key, slotDeadline := d.slotDeadline
    releaseSlot := some r, superseded := d.superseded, presenceDue := d.presenceDue, remarked := d.remarked }

theorem enterParked_returned (s : State) : enterParked s = returned .parked s := returnToOrigin_eq .parked s

/-- A RELEASE posted with no record in hand (R105, R112). -/
theorem postRelease_releaseIn {s : State} (h : s.seq.trip = none) (r : Release) :
    ∃ c attention, postRelease r s = { s with con := c, link := { s.link with attention := attention } } ∧
      ReleaseIn r s.con c ∧ (s.link.attention = true → attention = true) := by
  have hlost := postRelease_lost r s
  have htrip : (postRelease r s).seq.trip = none := hlost.trip_none h
  refine ⟨(postRelease r s).con, _, ?_, ?_, hlost.attention⟩
  · conv_lhs => rw [hlost.frame, htrip, ← h]
    rfl
  · rcases hlost.con with hc | hc <;> rw [hc] <;> rfl

theorem postShed_releaseIn {s : State} (h : s.seq.trip = none) (hs : s.seq.state.driving = true) (id : Fin 16) :
    ∃ c attention, postShed id s = { s with
        seq := { s.seq with shedHold := .timing s.now }, con := c, link := { s.link with attention := attention } } ∧
      ReleaseIn (shedRelease id) s.con c ∧ (s.link.attention = true → attention = true) := by
  obtain ⟨c, attention, he, hc, ha⟩ := postRelease_releaseIn h (shedRelease id)
  refine ⟨{ c with presenceDue := true, remarked := c.remarked || c.attempt.serves .presence }, attention, ?_, ?_, ha⟩
  · rw [postShed, ← shedRelease, he]
    exact markPresence_driving hs
  · rw [ReleaseIn] at hc ⊢
    rw [hc]

theorem endCancelled_spared {s : State} {x : Trip} {p : Standing} (hr : s.link.reply = .none) (hp : x.prior = some p)
    (ho : s.seq.shedOwed = false) :
    ∃ c attention, endCancelled true x s = tripTakenBack x.origin s.seq.shedHold c attention s ∧
      ReleaseIn (cancelledRelease x p) s.con c ∧ ((s.link.attention || s.seq.trip.isSome) = true → attention = true) := by
  obtain ⟨c, attention, he, hc, ha⟩ := postRelease_releaseIn (s := tripEnded s) rfl (cancelledRelease x p)
  refine ⟨c, attention, ?_, hc, ha⟩
  have howed : (tripEnded s).seq.shedOwed = false := ho
  rw [endCancelled, endTrip_ended]
  simp only [howed, hp, Option.getD_some, Bool.false_eq_true, if_false, if_true]
  rw [← cancelledRelease, he, returnToOrigin_eq, tripTakenBack, ← ho]
  exact (answerHeld_none (by exact hr) _).trans rfl

theorem endCancelled_owed {s : State} {x : Trip} (hr : s.link.reply = .none) (hs : s.seq.state.driving = true)
    (ho : s.seq.shedOwed = true) :
    ∃ c attention, endCancelled true x s = tripTakenBack .parked (.timing s.now) c attention s ∧
      ReleaseIn (shedRelease x.id) s.con c ∧ ((s.link.attention || s.seq.trip.isSome) = true → attention = true) := by
  obtain ⟨c, attention, he, hc, ha⟩ := postShed_releaseIn
    (s := { tripEnded s with seq := { (tripEnded s).seq with shedOwed := false } }) rfl hs x.id
  refine ⟨c, attention, ?_, hc, ha⟩
  have howed : (tripEnded s).seq.shedOwed = true := ho
  rw [endCancelled, endTrip_ended]
  simp only [howed, if_true]
  rw [he, enterParked_returned]
  exact (answerHeld_none (by exact hr) _).trans rfl

section
variable {s : State} {x : Trip} {p : Standing} {o : Origin} {hold : ShedHold} {r : Release} {c : ContentionUnit}
  {attention : Bool}

/-- The trip so taken back is what R144 says of one whose CLAIM stands on the line. -/
theorem tripTakenBack_takenBack (runp : Bool) (spd : SpeedStep) (hc : ReleaseIn r s.con c)
    (ha : (s.link.attention || s.seq.trip.isSome) = true → attention = true)
    (hspared : s.seq.shedOwed = false → s.seq.state ≠ .shedPending →
      o = x.origin ∧ hold = s.seq.shedHold ∧ r = cancelledRelease x p)
    (howed : s.seq.shedOwed = true ∨ s.seq.state = .shedPending →
      o = .parked ∧ hold = .timing s.now ∧ r = shedRelease x.id) :
    TakenBack s (respond (.check .tooLate x.id.val)
      (tripTakenBack o hold c attention (completionUndone runp spd (requestTaken s)))) x p := by
  have hslot : c.releaseSlot = some r := by rw [hc]
  refine ⟨rfl, rfl, respond_check_refused rfl .., ⟨rfl, rfl, rfl, rfl⟩, ?_, fun hn => if_neg (Ne.symm hn), rfl, ?_, ?_,
    ?_, rfl, ?_, rfl⟩
  · rintro (ht | hn)
    · have hattention : attention = true := ha (by simp [Option.isSome_iff_ne_none.mpr ht])
      rw [hattention]
      rfl
    · have hmoved : (s.seq.state != o.home) = true := bne_iff_ne.mpr (Ne.symm hn)
      exact (congrArg (attention || ·) hmoved).trans (Bool.or_true _)
  · intro hfree hstate
    obtain ⟨rfl, rfl, rfl⟩ := hspared hfree hstate
    exact ⟨rfl, rfl, hslot⟩
  · intro hshed
    obtain ⟨rfl, rfl, rfl⟩ := howed hshed
    exact ⟨rfl, hslot, rfl⟩
  · cases o <;> rfl
  · rw [ReleaseIn] at hc
    rw [hc]
    rfl

end

/-- The end of a completed CLAIM takes the trip back, for a car asked to shed and for one that is not (R144, R155). -/
theorem endCancelled_takenBack {s : State} {x : Trip} {p : Standing} (htaking : Taking s)
    (hs : s.seq.state.driving = true) (hp : x.prior = some p) (runp : Bool) (spd : SpeedStep) :
    TakenBack s (respond (.check .tooLate x.id.val)
        (endCancelled true x (completionUndone runp spd (requestTaken s)))) x p ∧
      (endCancelled true x (completionUndone runp spd (requestTaken s))).seq.runp = runp ∧
      (endCancelled true x (completionUndone runp spd (requestTaken s))).seq.spd = spd := by
  have hready : s.link.reply = .none := linkReady_reply htaking.1
  have hreply : (completionUndone runp spd (requestTaken s)).link.reply = .none := hready
  cases hw : (completionUndone runp spd (requestTaken s)).seq.shedOwed
  case false =>
    obtain ⟨hfree, hstate⟩ : s.seq.shedOwed = false ∧ s.seq.state ≠ .shedPending := by
      simpa [completionUndone, requestTaken] using hw
    obtain ⟨c, attention, he, hc, ha⟩ := endCancelled_spared hreply hp hw
    rw [he]
    exact ⟨tripTakenBack_takenBack runp spd hc ha (fun _ _ => ⟨rfl, rfl, rfl⟩)
      (fun h => absurd h (by simp [hfree, hstate])), rfl, rfl⟩
  case true =>
    have hshed : s.seq.shedOwed = true ∨ s.seq.state = .shedPending := by
      simpa [completionUndone, requestTaken] using hw
    obtain ⟨c, attention, he, hc, ha⟩ := endCancelled_owed hreply (x := x) hs hw
    rw [he]
    exact ⟨tripTakenBack_takenBack runp spd hc ha (fun hfree hstate => absurd hshed (by simp [hfree, hstate]))
      (fun _ => ⟨rfl, rfl, rfl⟩), rfl, rfl⟩

/-! ### What each TRIP-CANCEL comes to (R144, R160) -/

section
variable {s : State} {tripId : Byte} {x : Trip}

theorem neither_of_driving (hs : s.seq.state.driving = true) : s.seq.state ≠ .isolated ∧ s.seq.state ≠ .fallback := by
  constructor <;> exact fun h => absurd hs (by simp [h, SeqState.driving])

/-- A record that does not run decides, whatever has completed (R144). -/
theorem judgeTripCancel_unstarted (hs : s.seq.state.driving = true) (hx : s.seq.trip = some x)
    (hp : x.phase ≠ .running) : judgeTripCancel tripId s = cancelByRecord tripId s := by
  obtain ⟨hi, hf⟩ := neither_of_driving hs
  refine judgeTripCancel_byRecord hi hf fun y _ => ⟨?_, by simp [hx]⟩
  rw [← Bool.not_eq_true]
  exact fun hstands => hp (completionStands_running hx hstands).2

theorem judgeTripCancel_now (hs : s.seq.state.driving = true) (hx : s.seq.trip = some x)
    (hn : namesTrip tripId x.id = true) (hp : x.phase = .pending ∨ x.phase = .armed)
    (ha : s.con.attempt.isSending .claim = false) : judgeTripCancel tripId s = acceptWithState (cancelNow x s) := by
  have hunstarted : x.phase ≠ .running := by rcases hp with hp | hp <;> simp [hp]
  rw [judgeTripCancel_unstarted hs hx hunstarted, cancelByRecord_now hx hn hp ha]

theorem judgeTripCancel_sending (hs : s.seq.state.driving = true) (hx : s.seq.trip = some x)
    (hn : namesTrip tripId x.id = true) (hp : x.phase = .armed) (ha : s.con.attempt.isSending .claim = true) :
    judgeTripCancel tripId s = ({ s with
      seq := { s.seq with
        trip := some { x with cancel := true, prior := some { draw := s.seq.commitment, stamp := s.seq.stamp } } }
      con := { s.con with withdrawn := true } }, .held x.id) := by
  rw [judgeTripCancel_unstarted hs hx (by simp [hp]), cancelByRecord_sending hx hn hp ha]
  exact congrArg (·, Answer.held x.id) (if_pos ha)

theorem judgeTripCancel_tripless (hi : s.seq.state ≠ .isolated) (hx : s.seq.trip = none)
    (h : s.seq.state = .fallback ∨ ∀ y, ¬CompletedNow s tripId y) :
    judgeTripCancel tripId s = refuse .noTrip tripId.toNat s := by
  by_cases hf : s.seq.state = .fallback
  · rw [judgeTripCancel_fallback hf, cancelInFallback_none hx]
  · rw [judgeTripCancel_byRecord hi hf fun y hy => absurd hy (h.resolve_left hf y), cancelByRecord_none hx]

/-- A record that a TRIP-CANCEL does not find stays unfound at the instant of another's completion (R144). -/
theorem judgeTripCancel_noTrip (hi : s.seq.state ≠ .isolated) (hx : s.seq.trip = some x)
    (h : x.phase = .ending ∨ (namesTrip tripId x.id = false ∧ (x.phase ≠ .running ∨ s.seq.state ≠ .fallback))) :
    judgeTripCancel tripId s = refuse .noTrip tripId.toNat s := by
  by_cases hf : s.seq.state = .fallback
  · rw [judgeTripCancel_fallback hf]
    rcases h with hending | ⟨hunnamed, hp⟩
    · exact cancelInFallback_noTrip hx (by simp [hending]) (by simp [hending])
    · exact cancelInFallback_noTrip hx (hp.resolve_right (not_not_intro hf)) (by simp [hunnamed])
  · rw [judgeTripCancel_byRecord hi hf, cancelByRecord_noTrip hx (h.imp_right And.left)]
    rintro y ⟨hnamed, -⟩
    refine ⟨?_, by simp [hx]⟩
    rw [← Bool.not_eq_true]
    intro hstands
    obtain ⟨hid, hrunning⟩ := completionStands_running hx hstands
    rcases h with hending | ⟨hunnamed, -⟩
    · exact absurd (hending.symm.trans hrunning) (by decide)
    · simp [hid, hnamed] at hunnamed

theorem judgeTripCancel_tripActive (hi : s.seq.state ≠ .isolated) (hx : s.seq.trip = some x) (hp : x.phase = .running)
    (h : s.seq.state = .fallback ∨ (namesTrip tripId x.id = true ∧ ∀ y, ¬CompletedNow s tripId y)) :
    judgeTripCancel tripId s = refuse .tripActive x.id.val s := by
  by_cases hf : s.seq.state = .fallback
  · rw [judgeTripCancel_fallback hf, cancelInFallback_running hx hp]
  · obtain ⟨hn, hnone⟩ := h.resolve_left hf
    rw [judgeTripCancel_byRecord hi hf fun y hy => absurd hy (hnone y), cancelByRecord_running hx hn hp]

theorem judgeTripCancel_run (hs : s.seq.state.driving = true) (hc : CompletedNow s tripId x)
    (hfigures : ∃ a b c d, x.figures = .run a b c d) (hid : s.seq.trip.map Trip.id = some x.id)
    (hrun : tripIn .running s = true) :
    judgeTripCancel tripId s = (endCancelled true x (completionUndone false .p25 s), .check .tooLate x.id.val) := by
  obtain ⟨hi, hf⟩ := neither_of_driving hs
  have hstands : completionStands x s = true := by
    obtain ⟨a, b, c, d, hfigures⟩ := hfigures
    cases ht : s.seq.trip <;> simp_all [completionStands, tripIn]
  rw [judgeTripCancel_completed hi hf hc (.inl hstands), if_pos hstands, cancelCompleted_run hfigures]

/-- The completion of a wake stands while the car is, without a record, in the state it left (R135). -/
theorem completionStands_wake {f : StepFigures} (hfigures : x.figures = .wake f) :
    completionStands x s = true ↔
      s.seq.trip = none ∧ s.seq.state = (if x.purpose = .evacuation then .landed else .serviceIdle) := by
  cases hp : x.purpose <;> simp [completionStands, hfigures, hp]

theorem judgeTripCancel_wake (hs : s.seq.state.driving = true) (hc : CompletedNow s tripId x)
    (hfigures : ∃ f, x.figures = .wake f) (hx : s.seq.trip = none)
    (hstate : s.seq.state = (if x.purpose = .evacuation then .landed else .serviceIdle)) :
    judgeTripCancel tripId s =
      (endCancelled true x (completionUndone s.seq.runp s.seq.spd s), .check .tooLate x.id.val) := by
  obtain ⟨hi, hf⟩ := neither_of_driving hs
  obtain ⟨f, hf'⟩ := hfigures
  have hstands : completionStands x s = true := (completionStands_wake hf').mpr ⟨hx, hstate⟩
  rw [judgeTripCancel_completed hi hf hc (.inl hstands), if_pos hstands, cancelCompleted_wake ⟨f, hf'⟩]

/-- A completion that no longer stands leaves nothing to take back (R144, log 45). -/
theorem judgeTripCancel_gone (hs : s.seq.state.driving = true) (hc : CompletedNow s tripId x) (hx : s.seq.trip = none)
    (hgone : (∃ a b c d, x.figures = .run a b c d) ∨
      s.seq.state ≠ (if x.purpose = .evacuation then .landed else .serviceIdle)) :
    judgeTripCancel tripId s = (s, .check .tooLate x.id.val) := by
  obtain ⟨hi, hf⟩ := neither_of_driving hs
  have hstands : ¬completionStands x s = true := by
    cases hfigures : x.figures with
    | run a b c d => simp [completionStands, hfigures, hx]
    | wake f =>
      rw [completionStands_wake hfigures]
      rintro ⟨-, hstate⟩
      rcases hgone with ⟨a, b, c, d, hrun⟩ | hmoved
      · simp [hfigures] at hrun
      · exact hmoved hstate
  rw [judgeTripCancel_completed hi hf hc (.inr hx), if_neg hstands]

end

/-! ### O34 -/

/-- Settles O34: the record cancelled in time, its CLAIM sending, each refusal, and a completion of this instant. -/
theorem tripCancelTaken : Obligations.TripCancelTaken := by
  refine ⟨fun s tripId x htaking hx hn hs => ⟨fun hp ha => ?_, fun hp ha => ?_⟩, fun s tripId htaking => ?_,
    fun s tripId x p htaking hs hc hp => ⟨fun hfigures hid hrun => ?_, fun hfigures hx hstate => ?_,
      fun hx hgone => ?_⟩⟩
  · obtain ⟨u, hu, hserves, hsame, he⟩ := cancelNow_eq (s := requestTaken s) hx ha
    rw [exec_tripCancel htaking, judgeTripCancel_now (s := requestTaken s) hs hx hn hp ha, he]
    refine ⟨_, rfl, rfl, rfl, hserves, rfl, rfl, rfl, rfl, rfl, respond_acceptedWith rfl _, ⟨rfl, rfl⟩,
      ⟨rfl, rfl, rfl, rfl⟩, rfl, rfl, fun ho => if_pos ho, ?_, fun hw => ?_, rfl, rfl⟩
    · rcases hu.con with hcon | hcon <;> rw [hcon] <;> rfl
    · rw [hsame hw]
      rfl
  · rw [exec_tripCancel htaking, judgeTripCancel_sending (s := requestTaken s) hs hx hn hp ha]
    exact ⟨_, rfl, rfl, rfl, rfl, ⟨rfl, rfl, rfl, rfl⟩, rfl⟩
  · refine ⟨_, exec_tripCancel htaking tripId,
      respond_linkElse ((requestTaken_linkElse s).trans (judgeTripCancel_linkElse tripId _)) _, fun hi => ?_,
      fun hi hx h => ?_, fun x hi hx => ⟨fun h => ?_, fun hp h => ?_, fun hp hn hf => ?_⟩⟩
    · rw [judgeTripCancel_isolated (s := requestTaken s) hi]
      exact requestTaken_refused ..
    · rw [judgeTripCancel_tripless (s := requestTaken s) hi hx h]
      exact requestTaken_refused ..
    · rw [judgeTripCancel_noTrip (s := requestTaken s) hi hx h]
      exact requestTaken_refused ..
    · rw [judgeTripCancel_tripActive (s := requestTaken s) hi hx hp h]
      exact requestTaken_refused ..
    · have hdata : stateData (tripEnded (requestTaken s)) = [octet SeqState.fallback.code] := by rw [← hf]; rfl
      have hattention : (s.link.attention || s.seq.trip.isSome) = true := by simp [hx]
      rw [judgeTripCancel_fallback (s := requestTaken s) hf,
        cancelInFallback_pending (s := requestTaken s) hx hp hn, endTrip_ended, ← hdata]
      exact ⟨respond_acceptedWith rfl _, ⟨rfl, rfl⟩, hattention, rfl, rfl, rfl⟩
  · rw [exec_tripCancel htaking, judgeTripCancel_run (s := requestTaken s) hs hc hfigures hid hrun]
    exact ⟨_, rfl, endCancelled_takenBack htaking hs hp ..⟩
  · rw [exec_tripCancel htaking, judgeTripCancel_wake (s := requestTaken s) hs hc hfigures hx hstate]
    exact ⟨_, rfl, endCancelled_takenBack htaking hs hp ..⟩
  · rw [exec_tripCancel htaking, judgeTripCancel_gone (s := requestTaken s) hs hc hx hgone]
    obtain ⟨hrefused, hframe⟩ := requestTaken_refused s .tooLate x.id.val
    exact ⟨_, rfl, hrefused, ⟨rfl, rfl, rfl, rfl⟩, hframe⟩

end Sys2Proof.Machine
end

section
/-! The contacts' debounce (R61, R63, R64) and the pacing timers (R67, R71, R73 to R75): O40 and O47. -/

namespace Sys2Proof.Machine

/-! ### The contacts (R61, R63, R64, log 21) -/

/-- The debounce timer of a contact that has moved, `stands` where nothing is to be timed. -/
def debounceTimer (stands : Prop) [Decidable stands] (timer : Timer) (now : Nat) : Timer :=
  if stands then .stopped else if timer.isRunning then timer else .running now

theorem execTrnChange_eq (r : TrnReading) (s : State) :
    execTrnChange r s = .next { s with
      pins := { s.pins with trn := r }
      supply := { s.supply with
        trnTimer := debounceTimer (inReset s = true ∨ r = s.supply.trn) s.supply.trnTimer s.now } } := rfl

theorem execGokChange_eq (r : GokReading) (s : State) :
    execGokChange r s = .next { s with
      pins := { s.pins with gok := r }
      supply := { s.supply with
        gokTimer := debounceTimer (inReset s = true ∨ r = s.supply.gok) s.supply.gokTimer s.now } } := rfl

theorem Timer.isRunning_of_ne {timer : Timer} (h : timer ≠ .stopped) : timer.isRunning = true := by
  simpa [Timer.isRunning] using h

/-- A reading that differs from the debounced one starts its timer once; any other, or a held RESET, stops it. -/
theorem debounceTimer_cases (held settled : Prop) [Decidable (held ∨ settled)] (timer : Timer) (now : Nat) :
    (settled ∨ held → debounceTimer (held ∨ settled) timer now = .stopped) ∧
      (¬held → ¬settled → timer = .stopped → debounceTimer (held ∨ settled) timer now = .running now) ∧
      (¬held → ¬settled → timer ≠ .stopped → debounceTimer (held ∨ settled) timer now = timer) := by
  refine ⟨fun h => if_pos h.symm, fun hh hs ht => ?_, fun hh hs ht => ?_⟩ <;>
    rw [debounceTimer, if_neg (not_or.mpr ⟨hh, hs⟩)]
  · rw [ht]
    rfl
  · rw [Timer.isRunning_of_ne ht, if_pos rfl]

/-- Settles O40: the two contacts by their timers, the CAP lines by the row of R64 that applies. -/
theorem contactsAreDebounced : Obligations.ContactsAreDebounced := by
  refine ⟨fun s r => ⟨_, execTrnChange_eq r s, ?_⟩, fun s r => ⟨_, execGokChange_eq r s, ?_⟩, fun s c => ?_⟩
  · simpa using debounceTimer_cases (inReset s = true) (r = s.supply.trn) s.supply.trnTimer s.now
  · simpa using debounceTimer_cases (inReset s = true) (r = s.supply.gok) s.supply.gokTimer s.now
  · change ∃ cand tm, execCapChange c s = _ ∧ _
    by_cases hstands : inReset s = true ∨ c = s.supply.capCode
    · refine ⟨none, .stopped, by simp only [execCapChange, if_pos hstands], fun _ => ⟨rfl, rfl⟩, ?_, ?_⟩ <;>
        exact fun hr hc => absurd hstands (by simp [hr, hc])
    have hmoves : ¬(c = s.supply.capCode ∨ inReset s = true) := fun h => hstands h.symm
    by_cases hcandidate : s.supply.candidate = some c
    · refine ⟨s.supply.candidate, s.supply.capTimer, ?_, fun h => absurd h hmoves, fun _ _ _ => ⟨hcandidate, rfl⟩,
        fun _ _ h => absurd hcandidate h⟩
      simp only [execCapChange, if_neg hstands, if_pos hcandidate]
    · refine ⟨some c, .running s.now, ?_, fun h => absurd h hmoves, fun _ _ h => absurd h hcandidate,
        fun _ _ _ => ⟨rfl, rfl⟩⟩
      simp only [execCapChange, if_neg hstands, if_neg hcandidate]

/-! ### The pacing timers (R67, R71, R73) -/

/-- A monitor written at an instant to which time passes. -/
def monitored (instant : Nat) (m : SupplyMonitor) (s : State) : State := { passTo instant s with supply := m }

theorem execInWindowHalfSecond_running {s : State} {since : Nat} (ht : s.supply.inWindowTimer = .running since)
    (hh : s.supply.inWindowHalf = false) :
    execInWindowHalfSecond s = .next (noticeAfter s.supply
      (monitored (since + 500000) { s.supply with inWindowHalf := true } s)) := by
  rw [execInWindowHalfSecond, if_pos (by rw [ht, hh]; rfl), ht]
  rfl

theorem execSettleTimerExpiry_running {s : State} {since : Nat} (ht : s.supply.settle = .running since) :
    execSettleTimerExpiry s = .next (noticeAfter s.supply
      (monitored (since + (conf s).settleTime * 1000000) { s.supply with settle := .expired } s)) := by
  simp only [execSettleTimerExpiry, ht]
  rfl

theorem execCapacityHoldExpiry_running {s : State} {since : Nat} (ht : s.supply.holdTimer = .running since) :
    execCapacityHoldExpiry s = .next (noticeAfter s.supply
      (monitored (since + (conf s).holdTime * 1000000) { s.supply with holdTimer := .stopped } s)) := by
  rw [execCapacityHoldExpiry, if_pos (by rw [SupplyMonitor.holding, ht]; rfl), ht]
  rfl

/-- With Cap and the class as they were, a notice is due just when a settled indication has changed (R74, R75). -/
theorem noticeDue_settled {before after : SupplyMonitor} (hcap : after.capHeld = before.capHeld)
    (hclass : after.freqClass = before.freqClass) :
    noticeDue before after = true ↔
      after.settledEvac ≠ before.settledEvac ∨ after.settledService ≠ before.settledService := by
  simp only [noticeDue, hcap, hclass, bne_self_eq_false, Bool.false_or, Bool.or_eq_true, bne_iff_ne, ne_comm]

/-- The notice of a pacing timer: a WAITING attempt abandoned when a settled indication has changed, and otherwise nothing. -/
theorem noticeAfter_monitored {s : State} {m : SupplyMonitor} (hcap : m.capHeld = s.supply.capHeld)
    (hclass : m.freqClass = s.supply.freqClass) (instant : Nat) :
    (m.settledEvac = s.supply.settledEvac → m.settledService = s.supply.settledService →
      noticeAfter s.supply (monitored instant m s) = monitored instant m s) ∧
    (m.settledEvac ≠ s.supply.settledEvac ∨ m.settledService ≠ s.supply.settledService →
      noticeAfter s.supply (monitored instant m s) = abandonAttempt (monitored instant m s)) := by
  have hdue := noticeDue_settled hcap hclass
  refine ⟨fun he hs => noticeAfter_quiet _ _ ?_, fun h => noticeAfter_due _ _ (hdue.mpr h)⟩
  exact Bool.eq_false_iff.mpr fun h => (hdue.mp h).elim (absurd he) (absurd hs)

/-- Each of the three timers writes its own part of the monitor at its time, and delivers the notice. -/
theorem exec_pacing {s : State} {since limit : Nat} {i : Instr} {m : SupplyMonitor}
    (h : (i = .inWindowHalfSecond ∧ s.supply.inWindowTimer = .running since ∧ s.supply.inWindowHalf = false ∧
        m = { s.supply with inWindowHalf := true } ∧ limit = 500000) ∨
      (i = .settleTimerExpiry ∧ s.supply.settle = .running since ∧ m = { s.supply with settle := .expired } ∧
        limit = (conf s).settleTime * 1000000) ∨
      (i = .capacityHoldExpiry ∧ s.supply.holdTimer = .running since ∧
        m = { s.supply with holdTimer := .stopped } ∧ limit = (conf s).holdTime * 1000000)) :
    exec i s = .next (noticeAfter s.supply (monitored (since + limit) m s)) ∧
      m.capHeld = s.supply.capHeld ∧ m.freqClass = s.supply.freqClass := by
  rcases h with ⟨rfl, ht, hh, rfl, rfl⟩ | ⟨rfl, ht, rfl, rfl⟩ | ⟨rfl, ht, rfl, rfl⟩
  · exact ⟨execInWindowHalfSecond_running ht hh, rfl, rfl⟩
  · exact ⟨execSettleTimerExpiry_running ht, rfl, rfl⟩
  · exact ⟨execCapacityHoldExpiry_running ht, rfl, rfl⟩

/-- Settles O47: the notice of a settled indication that changes, and the silence of one that does not. -/
theorem pacingTimersExpire : Obligations.PacingTimersExpire := by
  intro s since i m limit h
  obtain ⟨hexec, hcap, hclass⟩ := exec_pacing h
  obtain ⟨hquiet, hnotice⟩ := noticeAfter_monitored hcap hclass (since + limit)
  refine ⟨_, hexec, by rw [(noticeAfter_keeps ..).1]; rfl, by simp [monitored], fun he hs => ?_, fun hd => ?_⟩
  · rw [hquiet he hs]
    rfl
  · rw [hnotice hd]
    have hlost := abandonAttempt_lost (monitored (since + limit) m s)
    obtain ⟨hrelease, hclaim, hdue, hfailures⟩ := abandonAttempt_slots (monitored (since + limit) m s)
    refine ⟨abandonAttempt_abandoned (monitored (since + limit) m s), ?_, ?_, ?_, hrelease, hclaim, hdue, ?_, hfailures,
      ?_, ?_, ?_, ?_, ?_⟩
    · rw [hlost.frame]
      rfl
    all_goals simp [monitored]

end Sys2Proof.Machine
end

section
/-! The TRN debounce (R61, R62): TAKEOVER in DORMANT and RETRANSFER in a session, O41 and O42. -/

namespace Sys2Proof.Machine

/-- The contact's level taken as the debounced reading at the expiry (R61). -/
def trnRead (since : Nat) (s : State) : State :=
  { passTo (since + Config.trnDebounce) s with
    supply := { s.supply with trn := s.pins.trn, trnTimer := .stopped } }

theorem execTrnDebounceExpiry_takeover {s : State} {since : Nat} (ht : s.supply.trnTimer = .running since)
    (hold : s.supply.trn = .normal) (hnew : s.pins.trn = .emergency) :
    execTrnDebounceExpiry s = .next (onTakeover (trnRead since s)) := by
  simp only [execTrnDebounceExpiry, ht, Timer.isRunning_running, passToExpiry_running, passTo_keeps, hold, hnew, trnRead,
    if_true]

theorem execTrnDebounceExpiry_retransfer {s : State} {since : Nat} (ht : s.supply.trnTimer = .running since)
    (hold : s.supply.trn = .emergency) (hnew : s.pins.trn = .normal) :
    execTrnDebounceExpiry s = .next (onRetransfer (trnRead since s)) := by
  simp only [execTrnDebounceExpiry, ht, Timer.isRunning_running, passToExpiry_running, passTo_keeps, hold, hnew, trnRead,
    if_true]

/-! ### TAKEOVER (R121, R130) -/

theorem onTakeover_dormant {s : State} (hs : s.seq.state = .dormant) :
    onTakeover s = if s.seq.duplicate then enterIsolated (sessionBegun s)
      else enterAwaitSupply (if s.seq.firstTakeover then 60000000 else 15000000) (sessionBegun s) := by
  unfold onTakeover
  split
  · exact absurd (hs.symm.trans ‹_›) (by decide)
  · rfl
  · exact absurd hs ‹_›

/-- ISOLATED after a departure, before a waiting reply is answered (R130). -/
def isolatedFrom (s : State) : State :=
  { departed s with
    seq := { (departed s).seq with
      state := .isolated, runp := false, spd := .p25, shdn := false, emop := true }
    supply := { s.supply with underTimer := .stopped }
    link := { s.link with attention := true } }

theorem enterIsolated_eq {s : State} (h : s.seq.state ≠ .isolated) :
    enterIsolated s = settleReply (isolatedFrom s) := by
  obtain ⟨attention, he⟩ := leaveService_eq s
  rw [enterIsolated, he, goTo_other (by exact h)]
  rfl

/-- Settles O41: a set duplicate flag, a supply not yet good, and one that is good. -/
theorem takeoverFromDormant : Obligations.TakeoverFromDormant := by
  intro s since hs htimer hold hnew
  have hexec := execTrnDebounceExpiry_takeover htimer hold hnew
  have hne {st : SeqState} (h : SeqState.dormant ≠ st) : (sessionBegun (trnRead since s)).seq.state ≠ st :=
    fun he => h (hs.symm.trans he)
  rw [onTakeover_dormant (s := trnRead since s) hs] at hexec
  cases hd : s.seq.duplicate
  case true =>
    rw [if_pos (by exact hd), enterIsolated_eq (hne (by decide))] at hexec
    refine ⟨_, hexec, ?_⟩
    simp only [settleReply_keeps, settleReply_attention]
    exact ⟨hnew, rfl, rfl, rfl, rfl, rfl, rfl, rfl, rfl, fun _ => ⟨rfl, rfl⟩, nofun, nofun, rfl, rfl, rfl, rfl, rfl, rfl⟩
  rw [if_neg (by exact Bool.eq_false_iff.mp hd), enterAwaitSupply_eq (hne (by decide))] at hexec
  cases hg : s.supply.good
  case false =>
    rw [if_neg (by exact Bool.eq_false_iff.mp hg)] at hexec
    refine ⟨_, hexec, ?_⟩
    exact ⟨hnew, rfl, rfl, rfl, rfl, rfl, rfl, rfl, rfl, nofun, fun _ _ => ⟨rfl, rfl, rfl⟩, nofun, rfl, rfl, rfl, rfl, rfl,
      rfl⟩
  rw [if_pos (by exact hg)] at hexec
  have hawaiting : (awaiting (if (trnRead since s).seq.firstTakeover then 60000000 else 15000000)
      (sessionBegun (trnRead since s))).seq.state ≠ .joining := nofun
  obtain ⟨hjoined, -⟩ := enterJoining_joinedNow hawaiting
  obtain ⟨adm, hold, remarked, he⟩ := enterJoining_eq hawaiting
  rw [he] at hexec hjoined
  refine ⟨_, hexec, ?_⟩
  exact ⟨hnew, rfl, rfl, rfl, rfl, rfl, rfl, rfl, rfl, nofun, nofun, fun _ _ => hjoined, rfl, rfl, rfl, rfl, rfl, rfl⟩

/-! ### RETRANSFER (R76, R163) -/

theorem SeqState.session_ne {st : SeqState} (h : st.session = true) : st ≠ .unconfigured ∧ st ≠ .dormant := by
  constructor <;> rintro rfl <;> cases h

theorem onRetransfer_session {s : State} (h : s.seq.state.session = true) :
    onRetransfer s = endSession (supplyAtSessionEnd s) := by
  obtain ⟨hu, hd⟩ := SeqState.session_ne h
  simp only [onRetransfer]
  split
  · exact absurd ‹_› hu
  · exact absurd ‹_› hd
  · rfl

/-- DORMANT after a session, before a waiting reply is answered (R163). -/
def sessionOver (s : State) : State :=
  { departed s with
    roster := {}
    seq := { (departed s).seq with
      state := .dormant, runp := true, spd := .p100, shdn := false, emop := false, lockout := false
      landedMark := false, sessionOrigin := none }
    link := { s.link with attention := true } }

theorem endSession_eq {s : State} (h : s.seq.state ≠ .dormant) : endSession s = settleReply (sessionOver s) := by
  obtain ⟨attention, he⟩ := leaveService_eq s
  rw [endSession, he, goTo_other (by exact h)]
  rfl

/-- At the end of a session Cap is formed with K at 0 (R76). -/
theorem supplyAtSessionEnd_capHeld {s : State} (h : configured s = true) :
    (supplyAtSessionEnd s).supply.capHeld = s.supply.capCode.val * (conf s).sstep - (conf s).rsv := if_pos h

/-- Settles O42: the departure into DORMANT, with the supply monitor's own part. -/
theorem retransferEndsSession : Obligations.RetransferEndsSession := by
  intro s since hs htimer hold hnew
  refine ⟨_, execTrnDebounceExpiry_retransfer htimer hold hnew, ?_⟩
  obtain ⟨hu, hd⟩ := SeqState.session_ne hs
  have hcap := supplyAtSessionEnd_capHeld (s := trnRead since s) (by simpa [configured, trnRead] using hu)
  obtain ⟨-, -, -, -, hline, -⟩ := clearOutbound_outbound (supplyAtSessionEnd (trnRead since s))
  have hdebts : DebtsSettled s (settleReply (sessionOver (supplyAtSessionEnd (trnRead since s)))) :=
    settleReply_debts rfl rfl rfl
  rw [onRetransfer_session (s := trnRead since s) hs, endSession_eq (s := supplyAtSessionEnd (trnRead since s)) hd]
  simp only [settleReply_keeps, settleReply_attention, OutboundClear]
  exact ⟨hnew, rfl, rfl, rfl, rfl, rfl, rfl, rfl, rfl, rfl, rfl, rfl, rfl, rfl, ⟨rfl, rfl, rfl, rfl, hline⟩, rfl, rfl, rfl,
    rfl, rfl, rfl, rfl, hcap, rfl, rfl, rfl, rfl, rfl, rfl, rfl, rfl, rfl, rfl, rfl, rfl, rfl, rfl, hdebts⟩

end Sys2Proof.Machine
end

section
/-! A change of the frequency class (R65 to R69, R72, R75): a pulse classified and the absence of pulses, O45 and O46. -/

namespace Sys2Proof.Machine

/-! ### The class written (R67, R72, R75) -/

/-- The monitor's own part of a change of class: the in-window time, the UNDER timer, the end of an episode. -/
def classChanged (c : FreqClass) (s : State) : State :=
  { s with supply := { s.supply with
      freqClass := c
      inWindowTimer := if c = .inWindow then .running s.now else .stopped
      inWindowHalf := false
      underTimer := if c = .under ∧ s.seq.state.supplied = true then .running s.now else .stopped
      episodeMark := if c = .inWindow then false else s.supply.episodeMark } }

/-- The class changed and its notice delivered, before the sequencer hears of an edge. -/
def classNoticed (c : FreqClass) (s : State) : State := abandonAttempt (classChanged c s)

theorem classNoticed_lost (c : FreqClass) (s : State) : AttemptLost (classChanged c s) (classNoticed c s) :=
  abandonAttempt_lost _

theorem classNoticed_supply (c : FreqClass) (s : State) : (classNoticed c s).supply = (classChanged c s).supply := by
  rw [(classNoticed_lost c s).frame]

theorem classNoticed_state (c : FreqClass) (s : State) : (classNoticed c s).seq.state = s.seq.state := by
  rw [(classNoticed_lost c s).frame]
  rfl

theorem becomeClass_change {c : FreqClass} {s : State} (h : s.supply.freqClass ≠ c) :
    becomeClass c s = supplyEdge s.supply (classNoticed c s) := by
  have hwritten : { s with supply := s.supply.withClass c s.seq.state.supplied s.now } = classChanged c s := by
    rw [SupplyMonitor.withClass, if_neg h]
    rfl
  rw [becomeClass]
  simp only [hwritten]
  rw [noticeAfter_due _ _ (by simp [noticeDue, classChanged, h])]
  rfl

/-! ### The edges of a change of class (R68, R69) -/

/-- With GOK as it was, supply good rises only with the class entering the window (R68). -/
theorem classNoticed_rise (c : FreqClass) (s : State) :
    s.supply.good = false ∧ (classNoticed c s).supply.good = true ↔
      s.supply.gok = .asserted ∧ s.supply.freqClass ≠ .inWindow ∧ c = .inWindow := by
  rw [classNoticed_supply]
  cases hg : s.supply.gok <;> simp [SupplyMonitor.good, classChanged, hg]

/-- With GOK as it was, supply is lost only with the class becoming ABSENT (R69). -/
theorem classNoticed_loss (c : FreqClass) (s : State) :
    s.supply.lost = false ∧ (classNoticed c s).supply.lost = true ↔
      s.supply.gok = .asserted ∧ s.supply.freqClass ≠ .absent ∧ c = .absent := by
  rw [classNoticed_supply]
  cases hg : s.supply.gok <;> simp [SupplyMonitor.lost, classChanged, hg]

/-- What the change of class does where it makes no edge: the notice, and nothing of the rest. -/
theorem classNoticed_quiet (c : FreqClass) (s : State) :
    Abandoned s (classNoticed c s) ∧
      (classNoticed c s).seq = { s.seq with trip := (classNoticed c s).seq.trip } ∧
      (classNoticed c s).roster = s.roster ∧ (classNoticed c s).adm = s.adm ∧ (classNoticed c s).line = s.line ∧
      (classNoticed c s).con.releaseSlot = s.con.releaseSlot ∧ (classNoticed c s).con.claimSlot = s.con.claimSlot ∧
      (classNoticed c s).con.presenceDue = s.con.presenceDue ∧ (classNoticed c s).link.reply = s.link.reply ∧
      (classNoticed c s).supply.settle = s.supply.settle := by
  have h := classNoticed_lost c s
  obtain ⟨hrelease, hclaim, hdue⟩ := h.slots
  refine ⟨abandonAttempt_abandoned (classChanged c s), ?_, ?_, ?_, ?_, hrelease, hclaim, hdue, ?_, ?_⟩ <;>
    (rw [h.frame]; rfl)

/-! ### The absence of pulses (R66, R69) -/

/-- The train ended at an instant, the class not yet written. -/
def trainEnded (instant : Nat) (s : State) : State :=
  { passTo instant s with supply := { s.supply with train := none, absenceTimer := .stopped } }

theorem becomeAbsent_eq (instant : Nat) (s : State) :
    becomeAbsent (passTo instant s) = becomeClass .absent (trainEnded instant s) := rfl

theorem execAbsenceExpiry_running {s : State} {since : Nat} (h : s.supply.absenceTimer = .running since) :
    execAbsenceExpiry s = .next (becomeAbsent (passTo (since + 100000) s)) := by
  rw [execAbsenceExpiry, if_pos (by rw [h]; rfl), h]
  rfl

/-- The notice before a loss touches nothing that the loss reads. -/
theorem AttemptLost.supplyLost {u v t : State} {instant : Nat} (h : AttemptLost u v) (hl : SupplyLost v t instant) :
    SupplyLost u t instant := by
  rw [h.frame] at hl
  exact hl

/-- The absence in a supplied state with GOK asserted is SUPPLY_LOSS, after the notice. -/
theorem becomeAbsent_loses {s : State} {instant : Nat} (hc : s.supply.freqClass ≠ .absent)
    (hs : s.seq.state.supplied = true) (hg : s.supply.gok = .asserted) :
    SupplyLost s (becomeAbsent (passTo instant s)) (max s.now instant) ∧
      (becomeAbsent (passTo instant s)).supply = { (classChanged .absent (trainEnded instant s)).supply with
        settle := .stopped, underTimer := .stopped } := by
  have hlost := classNoticed_lost .absent (trainEnded instant s)
  have hsupply := classNoticed_supply .absent (trainEnded instant s)
  have hstate := classNoticed_state .absent (trainEnded instant s)
  obtain ⟨hb, hl⟩ := (classNoticed_loss .absent (trainEnded instant s)).mpr ⟨hg, hc, rfl⟩
  have hgood : (classNoticed .absent (trainEnded instant s)).supply.good = false := by
    simp [hsupply, SupplyMonitor.good, classChanged]
  have hne : (classNoticed .absent (trainEnded instant s)).seq.state ≠ .awaitSupply :=
    hstate ▸ SeqState.ne_awaitSupply_of_supplied hs
  have hnow : (classNoticed .absent (trainEnded instant s)).now = max s.now instant := by
    rw [hlost.frame]
    rfl
  rw [becomeAbsent_eq, becomeClass_change (by exact hc), supplyEdge_loss hb hl hgood (hstate ▸ hs), ← hnow, ← hsupply]
  exact ⟨hlost.supplyLost (onSupplyLoss_lost hne hgood), onSupplyLoss_supply hne hgood⟩

/-- Anywhere else it is the notice alone. -/
theorem becomeAbsent_quiet {s : State} (instant : Nat) (hc : s.supply.freqClass ≠ .absent)
    (h : s.seq.state.supplied = false ∨ s.supply.gok = .negated) :
    becomeAbsent (passTo instant s) = classNoticed .absent (trainEnded instant s) := by
  rw [becomeAbsent_eq, becomeClass_change (by exact hc)]
  refine supplyEdge_quiet ?_ ?_
  · rw [classNoticed_rise]
    simp
  · rw [classNoticed_loss, classNoticed_state]
    rintro ⟨hs, hg, -, -⟩
    rcases h with h | h
    · exact absurd (h.symm.trans hs) (by decide)
    · exact absurd (h.symm.trans hg) (by decide)

/-- The absence taken at an instant, in its three cases: ABSENT already, a loss, and a mere notice. -/
theorem becomeAbsent_taken (instant : Nat) (s : State) :
    AbsenceTaken s (becomeAbsent (passTo instant s)) (max s.now instant) ∧
      (becomeAbsent (passTo instant s)).supply.train = none ∧
      (becomeAbsent (passTo instant s)).supply.absenceTimer = .stopped := by
  by_cases hc : s.supply.freqClass = .absent
  · rw [becomeAbsent_eq, becomeClass_same _ _ (by exact hc)]
    exact ⟨⟨hc, rfl, rfl, fun h => absurd hc h, fun h => absurd hc h, fun h => absurd hc h,
      fun _ => ⟨rfl, rfl, rfl, rfl, rfl, rfl, rfl⟩⟩, rfl, rfl⟩
  by_cases hl : s.seq.state.supplied = true ∧ s.supply.gok = .asserted
  · obtain ⟨hs, hg⟩ := hl
    obtain ⟨hlost, hsupply⟩ := becomeAbsent_loses (instant := instant) hc hs hg
    have hstate : ¬(s.seq.state.supplied = false ∨ s.supply.gok = .negated) := by simp [hs, hg]
    rw [AbsenceTaken, hsupply]
    exact ⟨⟨rfl, rfl, rfl, fun _ => ⟨rfl, rfl, rfl, rfl, rfl⟩, fun _ _ _ => hlost, fun _ h => absurd h hstate,
      fun h => absurd h hc⟩, rfl, rfl⟩
  · have hquiet : s.seq.state.supplied = false ∨ s.supply.gok = .negated := by
      cases hs : s.seq.state.supplied <;> cases hg : s.supply.gok <;> simp [hs, hg] at hl ⊢
    have hkept := classNoticed_quiet .absent (trainEnded instant s)
    rw [becomeAbsent_quiet instant hc hquiet]
    rw [classNoticed_supply] at hkept
    rw [AbsenceTaken, classNoticed_supply]
    exact ⟨⟨rfl, rfl, rfl, fun _ => ⟨rfl, rfl, rfl, rfl, rfl⟩, fun _ hs hg => absurd ⟨hs, hg⟩ hl, fun _ _ => hkept,
      fun h => absurd h hc⟩, rfl, rfl⟩

/-- Settles O46. -/
theorem absenceIsSupplyLoss : Obligations.AbsenceIsSupplyLoss := by
  intro s since hsince
  obtain ⟨htaken, htrain, htimer⟩ := becomeAbsent_taken (since + 100000) s
  have hnow : (becomeAbsent (passTo (since + 100000) s)).now = max s.now (since + 100000) := by simp
  exact ⟨_, execAbsenceExpiry_running hsince, hnow, htrain, htimer, hnow ▸ htaken, by simp, by simp⟩

/-! ### A pulse within 100 ms (R65, R68) -/

theorem execFsnPulse_begins {s : State} {period : Nat} (hr : inReset s = false) (ht : s.supply.train = none) :
    execFsnPulse period s = .next (beginTrain s) := by
  simp only [execFsnPulse, hr, ht, Bool.false_eq_true, if_false]

theorem execFsnPulse_late {s : State} {period last : Nat} (hr : inReset s = false) (ht : s.supply.train = some last)
    (hp : 100000 < period) :
    execFsnPulse period s =
      .next (beginTrain (passTo (last + period) (becomeAbsent (passTo (last + 100000) s)))) := by
  rw [execFsnPulse, if_neg (Bool.eq_false_iff.mp hr)]
  simp only [ht]
  exact if_pos hp

/-- A pulse in a train, its period not yet classified. -/
def pulsed (instant : Nat) (s : State) : State := beginTrain (passTo instant s)

theorem execFsnPulse_classifies {s : State} {period last : Nat} (hr : inReset s = false) (ht : s.supply.train = some last)
    (hp : period ≤ 100000) :
    execFsnPulse period s =
      .next (becomeClass (classifyPeriod (nominalFrequency s) period) (pulsed (last + period) s)) := by
  rw [execFsnPulse, if_neg (Bool.eq_false_iff.mp hr)]
  simp only [ht]
  exact if_neg (Nat.not_lt.mpr hp)

/-- The table of R65, read by the product of the nominal frequency and the period. -/
theorem classifyPeriod_table (fnom period : Nat) :
    (985 * fnom * period ≤ 1000000000 → 1000000000 ≤ 1015 * fnom * period →
      classifyPeriod fnom period = .inWindow) ∧
    (1015 * fnom * period < 1000000000 → classifyPeriod fnom period = .offWindow) ∧
    (940 * fnom * period ≤ 1000000000 → 1000000000 < 985 * fnom * period →
      classifyPeriod fnom period = .offWindow) ∧
    (1000000000 < 940 * fnom * period → classifyPeriod fnom period = .under) := by
  unfold classifyPeriod
  simp only [Nat.mul_assoc]
  generalize fnom * period = cycles
  refine ⟨fun _ _ => ?_, fun h => if_pos h, fun _ _ => ?_, fun _ => ?_⟩
  · rw [if_neg (by omega), if_pos (by omega)]
  · rw [if_neg (by omega), if_neg (by omega), if_pos (by omega)]
  · rw [if_neg (by omega), if_neg (by omega), if_neg (by omega)]

theorem classifyPeriod_present (fnom period : Nat) : classifyPeriod fnom period ≠ .absent := by
  unfold classifyPeriod
  split_ifs <;> decide

/-- JOINING neither begins nor ends an attempt, and writes no record. -/
theorem Abandoned.joined {s t : State} (h : Abandoned s t) (ht : t.seq.state ≠ .joining) :
    Abandoned s (enterJoining t) := by
  obtain ⟨hwaiting, hidle, harmed, hother, hnone⟩ := h
  obtain ⟨adm, hold, remarked, he⟩ := enterJoining_eq ht
  rw [he]
  refine ⟨hwaiting, hidle, fun x hc hx ha => ?_, hother, hnone⟩
  obtain ⟨hx', -⟩ := harmed x hc hx ha
  exact ⟨hx', rfl⟩

theorem AttemptLost.joinedNow {u v t : State} (h : AttemptLost u v) (hj : JoinedNow v t) : JoinedNow u t := by
  rw [h.frame] at hj
  exact hj

/-- A waiting session with GOK asserted whose supply comes into the window (R68, R122, R123). -/
def ComesGood (c : FreqClass) (s : State) : Prop :=
  (s.seq.state = .awaitSupply ∨ s.seq.state = .noSupply) ∧ s.supply.gok = .asserted ∧
    s.supply.freqClass ≠ .inWindow ∧ c = .inWindow

theorem becomeClass_joins {c : FreqClass} {s : State} (h : ComesGood c s) :
    becomeClass c s = enterJoining (classNoticed c s) ∧ JoinedNow s (enterJoining (classNoticed c s)) ∧
      Abandoned s (enterJoining (classNoticed c s)) ∧
      (enterJoining (classNoticed c s)).supply = { (classChanged c s).supply with
        settle := .running (enterJoining (classNoticed c s)).now } := by
  obtain ⟨hstate, hgok, hclass, rfl⟩ := h
  obtain ⟨hb, hg⟩ := (classNoticed_rise .inWindow s).mpr ⟨hgok, hclass, rfl⟩
  obtain ⟨habandoned, -⟩ := classNoticed_quiet .inWindow s
  have hseq := classNoticed_state .inWindow s
  have hne : (classNoticed .inWindow s).seq.state ≠ .joining := by
    rw [hseq]
    rcases hstate with h | h <;> rw [h] <;> decide
  obtain ⟨hjoined, hsupply⟩ := enterJoining_joinedNow hne
  refine ⟨?_, (classNoticed_lost .inWindow s).joinedNow hjoined, habandoned.joined hne, ?_⟩
  · rw [becomeClass_change hclass, supplyEdge_rise hb hg (hseq ▸ hstate)]
  · rw [hsupply, classNoticed_supply, (enterJoining_keeps _).1]

theorem becomeClass_quiet {c : FreqClass} {s : State} (hclass : s.supply.freqClass ≠ c) (hc : c ≠ .absent)
    (h : ¬ComesGood c s) : becomeClass c s = classNoticed c s := by
  rw [becomeClass_change hclass]
  refine supplyEdge_quiet ?_ ?_
  · rwa [classNoticed_rise, classNoticed_state]
  · rw [classNoticed_loss]
    exact fun ⟨_, _, _, habsent⟩ => hc habsent

theorem becomeClass_freqClass (c : FreqClass) (s : State) : (becomeClass c s).supply.freqClass = c := by
  by_cases h : s.supply.freqClass = c
  · rw [becomeClass_same _ _ h, h]
  · have hclass : (supplyEdge s.supply (classNoticed c s)).supply.freqClass = (classNoticed c s).supply.freqClass := by simp
    rw [becomeClass_change h, hclass, classNoticed_supply]
    rfl

/-- The absence leaves what a new train then begins. -/
theorem AbsenceTaken.trainBegun {s t : State} {instant : Nat} (h : AbsenceTaken s t instant) (later : Nat) :
    AbsenceTaken s (pulsed later t) instant := by
  obtain ⟨hclass, hgok, htrn, htimers, hloss, hquiet, hsame⟩ := h
  refine ⟨hclass, hgok, htrn, htimers, hloss, hquiet, fun ha => ?_⟩
  obtain ⟨hseq, hcon, hroster, hadm, hline, hlink, hsupply⟩ := hsame ha
  refine ⟨hseq, hcon, hroster, hadm, hline, hlink, ?_⟩
  simp only [pulsed, beginTrain, passTo_keeps]
  rw [hsupply]

/-- What a change of class to one with a frequency writes of the monitor, in the words of the statement. -/
theorem classChanged_timers (c : FreqClass) (s : State) :
    (classChanged c s).supply.inWindowTimer = (if c = .inWindow then .running s.now else .stopped) ∧
      (classChanged c s).supply.episodeMark = (s.supply.episodeMark && !(c == .inWindow)) := by
  cases c <;> simp [classChanged]

/-- Settles O45: RESET held, a first pulse, a pulse in time by the class it finds, and a late one. -/
theorem pulseClassified : Obligations.PulseClassified := by
  refine ⟨fun s period hr => if_pos hr, fun s period _ hr => ⟨fun ht => execFsnPulse_begins hr ht,
    fun last ht hp => ?_, fun last ht hp => ?_⟩⟩
  case refine_2 =>
    obtain ⟨htaken, -⟩ := becomeAbsent_taken (last + 100000) s
    refine ⟨_, execFsnPulse_late hr ht hp, ?_, rfl, rfl, htaken.trainBegun _, by simp, by simp⟩
    simp
    omega
  obtain ⟨hin, hover, hbelow, hunder⟩ := classifyPeriod_table (nominalFrequency s) period
  have hpresent := classifyPeriod_present (nominalFrequency s) period
  refine ⟨_, execFsnPulse_classifies hr ht hp, ?_⟩
  generalize classifyPeriod (nominalFrequency s) period = c at hin hover hbelow hunder hpresent ⊢
  have hnow : (becomeClass c (pulsed (last + period) s)).now = max s.now (last + period) := by simp [pulsed]
  have hconfig : (becomeClass c (pulsed (last + period) s)).config = s.config := by simp [pulsed]
  have hpins : (becomeClass c (pulsed (last + period) s)).pins = s.pins := by simp [pulsed]
  rw [hnow, hconfig, hpins, becomeClass_freqClass]
  by_cases hsame : s.supply.freqClass = c
  · rw [becomeClass_same _ _ (by exact hsame)]
    exact ⟨rfl, rfl, rfl, hin, hover, hbelow, hunder, fun _ => ⟨rfl, rfl⟩, fun h => absurd hsame.symm h,
      fun _ _ hn hc => absurd (hsame.trans hc) hn, fun _ => ⟨rfl, rfl, rfl, rfl, rfl, rfl, rfl, rfl, rfl⟩, rfl, rfl, rfl,
      rfl, rfl, rfl⟩
  obtain ⟨htimer, hmark⟩ := classChanged_timers c (pulsed (last + period) s)
  by_cases hgood : ComesGood c (pulsed (last + period) s)
  · obtain ⟨he, hjoined, habandoned, hsupply⟩ := becomeClass_joins hgood
    rw [he, hsupply]
    exact ⟨rfl, rfl, rfl, hin, hover, hbelow, hunder, fun h => absurd h.symm hsame,
      fun _ => ⟨htimer, rfl, rfl, hmark, rfl, habandoned⟩, fun _ _ _ _ => hjoined, fun h => absurd hgood h, rfl, rfl, rfl,
      rfl, rfl, rfl⟩
  · obtain ⟨habandoned, hseq, hroster, hadm, hline, hrelease, hclaim, hdue, hreply, -⟩ :=
      classNoticed_quiet c (pulsed (last + period) s)
    rw [becomeClass_quiet (s := pulsed (last + period) s) hsame hpresent hgood, classNoticed_supply]
    exact ⟨rfl, rfl, rfl, hin, hover, hbelow, hunder, fun h => absurd h.symm hsame,
      fun _ => ⟨htimer, rfl, rfl, hmark, rfl, habandoned⟩, fun h1 h2 h3 h4 => absurd ⟨h1, h2, h3, h4⟩ hgood,
      fun _ => ⟨hseq, hroster, hadm, hline, rfl, hrelease, hclaim, hdue, hreply⟩, rfl, rfl, rfl, rfl, rfl, rfl⟩

end Sys2Proof.Machine
end

section
/-!
The own message at the end of its activity (R87, R113): what every completion leaves, a reference point after the station has
spoken, and the completions of a RELEASE and of a PRESENCE.
-/

namespace Sys2Proof.Machine

/-! ### The own message recognised and offered to the filters (R87, R177) -/

/-- The block when the own message is recognised: the receiver QUIET, the transmitter IDLE, and on the car link what the filters
make of the message. -/
def ownTaken (link : CarLink) (instant : Nat) (u : LineUnit) (s : State) : State :=
  { s with now := instant, line := { u.quiet with transmitter := none }, link := link }

/-- The message the station has sent. -/
def ownMessage (b : Body) (s : State) : Message := { station := s.station, body := b }

theorem offerObservation_ownTaken (b : Body) (reference : Nat) (u : LineUnit) (s : State) :
    ∃ link, offerObservation (observationOf (ownMessage b s) true)
        (ownTaken s.link (max s.now (reference + 120)) u s) = ownTaken link (max s.now (reference + 120)) u s ∧
      link.reply = s.link.reply ∧
      Observed s (ownTaken link (max s.now (reference + 120)) u s) (ownMessage b s) true := by
  have hobserved := offerObservation_observed (ownMessage b s) true (ownTaken s.link (max s.now (reference + 120)) u s)
  rcases offerObservation_cases (observationOf (ownMessage b s) true)
    (ownTaken s.link (max s.now (reference + 120)) u s) with he | ⟨-, he⟩ | he
  all_goals
    rw [he] at hobserved ⊢
    exact ⟨_, rfl, rfl, hobserved⟩

/-- What the kind of the message adds to the completion (R113). -/
def ownCompleted (b : Body) (s : State) : State :=
  match b with
  | .release r => completeRelease r s
  | .claim c => completeClaim c s
  | .presence _ => completePresence s

/-- The end of the own message's activity, whole and alone: the filters, the completion, the start, the reference point. -/
theorem execEndOfActivity_own {s : State} {changes : List LineChange} {reference : Nat} {u : LineUnit} {b : Body}
    {y : Sending} (hactive : s.line.active = true) (hsending : s.line.transmitter = some y)
    (hattempt : s.con.attempt = .sending b) (hend : s.line.recognised changes = some (reference, u))
    (hown : completesOwn u y = true) :
    execEndOfActivity changes s = .next (referencePoint reference (noteStart b (ownCompleted b
      (offerObservation (observationOf (ownMessage b s) true)
        (ownTaken s.link (max s.now (reference + 120)) u s))))) := by
  obtain ⟨-, htransmitter, -⟩ := LineUnit.recognised_keeps hend
  have hquiet : (activityEnded reference u s).line.transmitter = some y := htransmitter.trans hsending
  have hcon : (activityEnded reference u s).con.attempt = .sending b := hattempt
  have hsettle : settleActivity u (activityEnded reference u s) = completeOwn b (activityEnded reference u s) := by
    simp only [settleActivity, hquiet, hcon, hown, if_true]
  rw [execEndOfActivity, if_pos hactive, hend]
  show Host.Outcome.next (referencePoint reference (settleActivity u (activityEnded reference u s))) = _
  rw [hsettle]
  rfl

/-! ### A start noted with no attempt waiting (R73, R111) -/

theorem noteStart_idle {b : Body} {s : State} (h : s.con.attempt = .none) :
    noteStart b s = { s with supply := startNoted b s } := by
  cases b with
  | release r => rfl
  | presence p => rfl
  | claim c =>
    simp only [noteStart, startNoted]
    split
    · have hs : restartSettle s = { s with supply := (restartSettle s).supply } := by
        unfold restartSettle
        split <;> rfl
      have hidle : abandonAttempt (restartSettle s) = restartSettle s :=
        abandonAttempt_idle fun b hb => by
          rw [hs] at hb
          exact absurd (h.symm.trans hb) nofun
      rw [noticeAfter, supplyNotice, hidle, ite_self, ← hs]
    · rfl

/-! ### A reference point of a station that has spoken (R102, R107) -/

theorem referencePoint_spoken {s : State} (h : s.con.spoken = true) (instant : Nat) :
    referencePoint instant s = evaluate (atReference instant s) := by
  have hspoken : (evaluate (atReference instant s)).con.spoken = true := by simpa [atReference] using h
  refine chooseSlot_idle (Bool.eq_false_iff.mpr fun hm => ?_) ..
  obtain ⟨-, hsilent, -⟩ := (mayChoose_iff _).mp hm
  exact absurd (hsilent.symm.trans hspoken) (by decide)

theorem evaluate_settled {s : State} (h : ∀ x, s.seq.trip = some x → ¬x.live) : evaluate s = s := by
  rcases evaluate_cases s with he | ⟨x, hx, hlive, -⟩
  · exact he
  · exact absurd (evaluable_live hlive) (h x hx)

/-! ### What every completion leaves (R113) -/

/-- The contention unit after an own completion, with all else that no kind of message touches. -/
structure OwnOver (s t : State) : Prop where
  now : t.now = s.now
  line : t.line = s.line
  supply : t.supply = s.supply
  config : t.config = s.config
  pins : t.pins = s.pins
  attempt : t.con.attempt = .none
  spoken : t.con.spoken = true
  failures : t.con.failures = 0
  presenceTimer : t.con.presenceTimer = .running s.now
  link : LinkElse s t
  attention : s.link.attention = true → t.link.attention = true

/-- The whole instant after the completion, whatever the reference point then evaluates. -/
theorem OwnOver.ends {link : CarLink} {instant reference : Nat} {u : LineUnit} {b : Body} {s w : State}
    (h : OwnOver (ownTaken link instant u s) w) (ho : Observed s (ownTaken link instant u s) (ownMessage b s) true) :
    let t := referencePoint reference (noteStart b w)
    t.now = instant ∧ t.line.transmitter = none ∧ t.line.active = false ∧ t.con.attempt = .none ∧
      t.con.spoken = true ∧ t.con.failures = 0 ∧ t.con.presenceTimer = .running t.now ∧
      t.con.roundTimer = .running reference ∧ Observed s t (ownMessage b s) true ∧
      ((∃ c, b = .claim c ∧ 0 < c.start) ∧ s.supply.settle ≠ .stopped →
        t.supply = { s.supply with settle := .running t.now }) ∧
      (¬((∃ c, b = .claim c ∧ 0 < c.start) ∧ s.supply.settle ≠ .stopped) → t.supply = s.supply) ∧
      t.config = s.config ∧ t.pins = s.pins := by
  obtain ⟨hnow, hline, hsupply, hconfig, hpins, hattempt, hspoken, hfailures, htimer, hlink, hattention⟩ := h
  have hsupply0 : w.supply = s.supply := hsupply
  rw [noteStart_idle hattempt]
  intro t
  obtain ⟨hkept, hround⟩ := referencePoint_kept reference { w with supply := startNoted b w }
  have hobserved : Observed s t (ownMessage b s) true := by
    refine ho.kept ⟨rfl, rfl, rfl, rfl⟩ ?_ (hkept.attention ∘ hattention)
    exact hlink.trans (by simp [LinkElse, t])
  have hcon := (evaluate_leaves (atReference reference { w with supply := startNoted b w })).con
  rw [← referencePoint_spoken (s := { w with supply := startNoted b w }) hspoken] at hcon
  have hfinal : t.supply = startNoted b w := by simp [t]
  have hinstant : t.now = instant := by simp [t, hnow, ownTaken]
  rw [hinstant]
  refine ⟨rfl, ?_, ?_, ?_, ?_, ?_, ?_, hround, hobserved, fun hs => ?_, fun hs => ?_,
    by simp [t, hconfig, ownTaken], by simp [t, hpins, ownTaken]⟩
  · simp [t, hline, ownTaken]
  · simp [t, hline, ownTaken]
  · exact (congrArg ContentionUnit.attempt hcon).trans hattempt
  · exact (congrArg ContentionUnit.spoken hcon).trans hspoken
  · exact (congrArg ContentionUnit.failures hcon).trans hfailures
  · exact (congrArg ContentionUnit.presenceTimer hcon).trans htimer
  · obtain ⟨⟨c, rfl, hstart⟩, hsettle⟩ := hs
    rw [hfinal, startNoted_start hstart (by rwa [hsupply0]), hsupply0, hnow]
    rfl
  · rw [hfinal, startNoted_other (by rwa [hsupply0]), hsupply0]

/-! ### The own RELEASE (R113, R119, R142) -/

theorem completeRelease_eq (r : Release) (s : State) :
    completeRelease r s = { s with
      seq := { s.seq with
        commitment := r.draw, claimClass := if r.draw = 0 then 0 else s.seq.claimClass
        stamp := if r.draw = 0 then 0 else r.stamp, trip := if tripIn .ending s then none else s.seq.trip }
      con := { s.con.completed s.now with
        releaseSlot := if s.con.superseded then s.con.releaseSlot else none, superseded := false }
      link := { s.link with attention := s.link.attention || tripIn .ending s } } := by
  have hending : ∀ v : State, v.seq.trip = s.seq.trip → tripIn .ending v = tripIn .ending s :=
    fun v hv => by rw [tripIn, tripIn, hv]
  cases he : tripIn .ending s <;> by_cases hd : r.draw = 0 <;>
    simp [completeRelease, standingFromRelease, zeroStanding, hd, hending, he, changeTrip, attend]

theorem completeRelease_over (r : Release) (s : State) : OwnOver s (completeRelease r s) := by
  rw [completeRelease_eq]
  exact ⟨rfl, rfl, rfl, rfl, rfl, rfl, rfl, rfl, rfl, ⟨rfl, rfl, rfl, rfl⟩, fun h => by simp [h]⟩

theorem completePresence_over (s : State) : OwnOver s (completePresence s) :=
  ⟨rfl, rfl, rfl, rfl, rfl, rfl, rfl, rfl, rfl, ⟨rfl, rfl, rfl, rfl⟩, id⟩

/-- The RELEASE's own part at the end of the instant, whatever is evaluated then. -/
theorem referencePoint_release_completed (r : Release) (s : State) (reference : Nat) :
    let t := referencePoint reference (completeRelease r s)
    t.seq.commitment = r.draw ∧ t.roster = s.roster ∧ (r.draw = 0 → t.seq.claimClass = 0 ∧ t.seq.stamp = 0) ∧
      (r.draw ≠ 0 → t.seq.claimClass = s.seq.claimClass ∧ t.seq.stamp = r.stamp) ∧
      t.con.releaseSlot = (if s.con.superseded then s.con.releaseSlot else none) ∧ t.con.superseded = false ∧
      (tripIn .ending s = true → t.seq.trip = none ∧ t.seq.state = s.seq.state ∧ t.link.attention = true) := by
  rw [referencePoint_spoken (completeRelease_over r s).spoken, completeRelease_eq]
  intro t
  have hleaves : EvaluationLeaves _ t := evaluate_leaves _
  have hcommitment := congrArg Sequencer.commitment hleaves.seq
  have hclass := congrArg Sequencer.claimClass hleaves.seq
  have hstamp := congrArg Sequencer.stamp hleaves.seq
  have hrelease := congrArg ContentionUnit.releaseSlot hleaves.con
  have hsuperseded := congrArg ContentionUnit.superseded hleaves.con
  refine ⟨hcommitment, by simp [t, atReference], fun h0 => ⟨hclass.trans (if_pos h0), hstamp.trans (if_pos h0)⟩,
    fun h0 => ⟨hclass.trans (if_neg h0), hstamp.trans (if_neg h0)⟩, hrelease, hsuperseded, fun he => ?_⟩
  have hnone : t = _ := evaluate_none _ (if_pos he)
  rw [hnone]
  exact ⟨if_pos he, rfl, by simp [atReference, he]⟩

/-- The PRESENCE's own part; a record that is evaluated then may move the sequencer. -/
theorem referencePoint_presence_completed (s : State) (reference : Nat) :
    let t := referencePoint reference (completePresence s)
    t.roster = s.roster ∧ t.seq.commitment = s.seq.commitment ∧
      (s.seq.trip = none → t.seq = s.seq ∧ t.con.presenceDue = s.con.remarked ∧ t.con.remarked = false) := by
  rw [referencePoint_spoken (completePresence_over s).spoken]
  intro t
  have hleaves : EvaluationLeaves _ t := evaluate_leaves _
  refine ⟨by simp [t, atReference], (congrArg Sequencer.commitment hleaves.seq).trans rfl, fun hx => ?_⟩
  have hnone : t = _ := evaluate_none _ hx
  rw [hnone]
  exact ⟨rfl, rfl, rfl⟩

end Sys2Proof.Machine
end

section
/-!
What a roster change can do to a car with no attempt in hand (R28, R151 to R157).
-/

namespace Sys2Proof.Machine

/-! ### Operations on the slots with no attempt in hand (R105, R112, R115) -/

theorem postRelease_idle {s : State} (h : s.con.attempt = .none) (r : Release) :
    postRelease r s = { s with con := { s.con with releaseSlot := some r } } := by
  simp [postRelease, h, Attempt.isSending, Attempt.isWaiting]

theorem withdrawClaim_idle {s : State} (h : s.con.attempt = .none) :
    withdrawClaim s = { s with con := { s.con with claimSlot := none } } := by
  simp [withdrawClaim, h, Attempt.isSending, Attempt.isWaiting]

theorem postShed_idle {s : State} (h : s.con.attempt = .none) (hd : s.seq.state.driving = true) (id : Fin 16) :
    postShed id s = { s with
      seq := { s.seq with shedHold := .timing s.now }
      con := { s.con with releaseSlot := some (shedRelease id), presenceDue := true } } := by
  rw [postShed, postRelease_idle h, markPresence_driving (by exact hd)]
  simp [h, Attempt.serves, shedRelease]

/-! ### A roster change (R28, R154) -/

/-- The states in which no shed moves the car a completed CLAIM has left there (R154). -/
def SeqState.unshed (st : SeqState) : Prop := st = .evacRun ∨ st = .landed ∨ st = .parked

/-- What a roster change can do to a car with no attempt in hand. -/
structure ShedMoved (s t : State) : Prop where
  frame : t = { s with
    roster := t.roster, seq := t.seq, adm := t.adm, con := t.con
    link := { s.link with attention := t.link.attention } }
  seq : t.seq = { s.seq with
    state := t.seq.state, shdn := t.seq.shdn, idleTimer := t.seq.idleTimer, agingTimer := t.seq.agingTimer
    shedHold := t.seq.shedHold, trip := t.seq.trip }
  con : t.con = { s.con with
    releaseSlot := t.con.releaseSlot, claimSlot := t.con.claimSlot, presenceDue := t.con.presenceDue
    remarked := t.con.remarked }
  ownDemand : s.adm.ownDemand = none → t.adm.ownDemand = none
  agingTimer : s.seq.agingTimer = .stopped → t.seq.agingTimer = .stopped
  claimSlot : s.con.claimSlot = none → t.con.claimSlot = none
  presenceDue : s.con.presenceDue = true → t.con.presenceDue = true
  attention : s.link.attention = true → t.link.attention = true
  trip : t.seq.trip = s.seq.trip ∨ t.seq.trip = none
  running : s.seq.state = .serviceRun →
    t.seq.trip = s.seq.trip ∧ (t.seq.state = .serviceRun ∨ t.seq.state = .shedPending)
  still : s.seq.state.unshed → t.seq = { s.seq with shedHold := t.seq.shedHold } ∧ t.con = s.con ∧
    (s.seq.shedHold ≠ .awaitDemand → t.seq.shedHold = s.seq.shedHold)

/-- A roster written, with the shed view and the shed hold that looks at the demands (R151, R157). -/
structure RosterTaken (s t : State) : Prop where
  frame : t = { s with
    roster := t.roster, adm := t.adm, seq := { s.seq with shedHold := t.seq.shedHold }
    link := { s.link with attention := t.link.attention } }
  ownDemand : t.adm.ownDemand = s.adm.ownDemand
  hold : s.seq.shedHold ≠ .awaitDemand → t.seq.shedHold = s.seq.shedHold
  attention : s.link.attention = true → t.link.attention = true

theorem RosterTaken.moved {s t : State} (h : RosterTaken s t) : ShedMoved s t := by
  obtain ⟨hframe, hdemand, hhold, hattention⟩ := h
  have hseq : t.seq = { s.seq with shedHold := t.seq.shedHold } := by rw [hframe]
  have hcon : t.con = s.con := by rw [hframe]
  refine ⟨?_, ?_, ?_, fun h => hdemand.trans h, fun h => ?_, fun h => ?_, fun h => ?_, hattention, .inl ?_,
    fun h => ⟨?_, .inl ?_⟩, fun _ => ⟨hseq, hcon, hhold⟩⟩
  · rw [hframe]
  · rw [hseq]
  · rw [hcon]
  · rw [hseq, ← h]
  · rw [hcon, h]
  · rw [hcon, h]
  all_goals rw [hseq]
  exact h

/-- Writing a roster in a driving state takes it, and then at most sheds the own car. -/
theorem changeRoster_taken {s : State} (hd : s.seq.state.driving = true) (r : Roster) :
    ∃ v, RosterTaken s v ∧ (changeRoster r s = v ∨ changeRoster r s = shedCar v) := by
  by_cases hc : RosterChange s.roster.records r.records
  · obtain ⟨v, hv, -, hshed, hleave⟩ := shedTest_driving (s := withRoster s r) hd
    rw [changeRoster_change hc]
    refine ⟨v, ⟨?_, ?_, fun hn => ?_, hv.attention⟩, ?_⟩
    · rw [hv.frame]
      rfl
    · rw [hv.frame]
      rfl
    · rw [hv.frame]
      exact if_neg fun h => hn h.1
    · by_cases hown : ShedsOwn (withRoster s r)
      · exact .inr (hshed hown)
      · exact .inl (hleave hown)
  · rw [changeRoster_same hc]
    exact ⟨{ s with roster := r }, ⟨rfl, rfl, fun _ => rfl, id⟩, .inl rfl⟩

/-- Shedding a car with no attempt in hand, by its state (R154). -/
theorem shedCar_moved {s : State} (ha : s.con.attempt = .none) : ShedMoved s (shedCar s) := by
  have hstill (h : shedCar s = s) : ShedMoved s (shedCar s) := by
    rw [h]
    exact RosterTaken.moved ⟨rfl, rfl, fun _ => rfl, id⟩
  have hposted (h : s.seq.state = .assess ∨ s.seq.state = .evacWait) : ShedMoved s (shedCar s) := by
    rw [shedCar_waiting h, postShed_idle ha (by rcases h with h | h <;> rw [h] <;> rfl)]
    refine ⟨rfl, rfl, rfl, id, id, id, fun _ => rfl, id, .inl rfl, fun hn => ?_, fun hn => ?_⟩
    · rcases h with h | h <;> rw [h] at hn <;> cases hn
    · rcases h with h | h <;> rw [h] at hn <;> rcases hn with hn | hn | hn <;> cases hn
  cases hs : s.seq.state
  case serviceIdle =>
    rw [shedCar_serviceIdle hs, postShed_idle (by exact ha) (by simp only [hs]; rfl), enterParked_returned]
    refine ⟨rfl, rfl, rfl, id, id, id, fun _ => rfl, fun h => ?_, .inl rfl, ?_, ?_⟩
    · simp [returned, h]
    · rw [hs]
      nofun
    · rw [hs]
      rintro (h | h | h) <;> cases h
  case serviceWait =>
    have hsending : s.con.attempt.isSending .claim = false := by rw [ha]; rfl
    rw [shedCar_serviceWait hs hsending, withdrawClaim_idle ha, endTrip_ended,
      postShed_idle (by exact ha) (by simp only [tripEnded, hs]; rfl), enterParked_returned]
    refine ⟨rfl, rfl, rfl, fun _ => rfl, fun _ => rfl, fun _ => rfl, fun _ => rfl, fun h => ?_, .inr rfl, ?_, ?_⟩
    · simp [returned, tripEnded, h]
    · rw [hs]
      nofun
    · rw [hs]
      rintro (h | h | h) <;> cases h
  case serviceRun =>
    rw [shedCar_serviceRun hs, markPresence_driving rfl]
    refine ⟨rfl, rfl, rfl, id, id, id, fun _ => rfl, fun _ => rfl, .inl rfl, fun _ => ⟨rfl, .inr rfl⟩, ?_⟩
    rw [hs]
    rintro (h | h | h) <;> cases h
  case assess =>
    exact hposted (.inl hs)
  case evacWait =>
    exact hposted (.inr hs)
  all_goals exact hstill (shedCar_elsewhere (by simp [hs]))

theorem ShedMoved.of_taken {s v t : State} (hv : RosterTaken s v) (ht : ShedMoved v t) : ShedMoved s t := by
  obtain ⟨hframe, hdemand, hhold, hattention⟩ := hv
  have hseq : v.seq = { s.seq with shedHold := v.seq.shedHold } := by rw [hframe]
  have hcon : v.con = s.con := by rw [hframe]
  have hstate : v.seq.state = s.seq.state := by rw [hseq]
  have htrip : v.seq.trip = s.seq.trip := by rw [hseq]
  have haging : v.seq.agingTimer = s.seq.agingTimer := by rw [hseq]
  refine ⟨?_, ?_, ?_, fun h => ht.ownDemand (hdemand.trans h), fun h => ht.agingTimer (haging.trans h),
    fun h => ht.claimSlot (by rw [hcon, h]), fun h => ht.presenceDue (by rw [hcon, h]),
    fun h => ht.attention (hattention h), htrip ▸ ht.trip, fun h => htrip ▸ ht.running (hstate.trans h), fun h => ?_⟩
  · rw [ht.frame, hframe]
  · rw [ht.seq, hseq]
  · rw [ht.con, hcon]
  · obtain ⟨htseq, htcon, hthold⟩ := ht.still (hstate.symm ▸ h)
    refine ⟨?_, htcon.trans hcon, fun hn => ?_⟩
    · rw [htseq, hseq]
    · exact (hthold (by rwa [hhold hn])).trans (hhold hn)

/-- A roster written in a driving state, with no attempt in hand. -/
theorem changeRoster_moved {s : State} (hd : s.seq.state.driving = true) (ha : s.con.attempt = .none) (r : Roster) :
    ShedMoved s (changeRoster r s) := by
  obtain ⟨v, hv, he | he⟩ := changeRoster_taken hd r
  · exact he ▸ hv.moved
  · have hcon : v.con = s.con := by rw [hv.frame]
    exact he ▸ .of_taken hv (shedCar_moved (by rw [hcon, ha]))

end Sys2Proof.Machine
end

section
/-!
The own CLAIM completed, by the form of its record (R113, R135, R136, R144, R155, log 45).
-/

namespace Sys2Proof.Machine

/-! ### The standing of a completed CLAIM, and the end of its record (R59, R115, R119) -/

/-- The block as the completed CLAIM's record finds it: the standing taken, the slot empty, the record kept for a
TRIP-CANCEL of this instant, aging and patience stopped, the own demand withdrawn (R59, R115, R119, log 45). -/
def claimStood (c : Claim) (s : State) : State :=
  { s with
    seq := { s.seq with
      commitment := c.draw, claimClass := c.cls, stamp := c.stamp, agingTimer := .stopped
      lastClaim := s.seq.trip.map fun x =>
        { trip := { x with cancel := true, prior := some { draw := s.seq.commitment, stamp := s.seq.stamp } }
          instant := s.now } }
    adm := { s.adm with patience := .stopped, ownDemand := none }
    con := { s.con.completed s.now with claimSlot := none, withdrawn := false } }

theorem completeClaim_tripless (c : Claim) {s : State} (h : s.seq.trip = none) :
    completeClaim c s = changeRoster (offerStamp c.stamp s.roster) (claimStood c s) := by
  simp [completeClaim, tripAfterClaim, standingFromClaim, noteClaim, claimStood, h]

theorem completeClaim_cancelled (c : Claim) {s : State} {x : Trip} (hx : s.seq.trip = some x)
    (h : x.cancel = true ∨ s.con.withdrawn = true) :
    completeClaim c s = changeRoster (offerStamp c.stamp s.roster) (endCancelled true x (claimStood c s)) := by
  have hcancel : (x.cancel || s.con.withdrawn) = true := by simpa using h
  simp [completeClaim, tripAfterClaim, standingFromClaim, noteClaim, claimStood, hx, hcancel]

theorem completeClaim_run (c : Claim) {s : State} {x : Trip} {a d e f : StepFigures}
    (hx : s.seq.trip = some x) (hc : x.cancel = false) (hw : s.con.withdrawn = false) (hf : x.figures = .run a d e f) :
    completeClaim c s = changeRoster (offerStamp c.stamp s.roster) (startRun x (claimStood c s)) := by
  simp [completeClaim, tripAfterClaim, standingFromClaim, noteClaim, claimStood, hx, hc, hw, hf]

theorem completeClaim_wake (c : Claim) {s : State} {x : Trip} {f : StepFigures}
    (hx : s.seq.trip = some x) (hc : x.cancel = false) (hw : s.con.withdrawn = false) (hf : x.figures = .wake f) :
    completeClaim c s = changeRoster (offerStamp c.stamp s.roster) (finishWake x (claimStood c s)) := by
  simp [completeClaim, tripAfterClaim, standingFromClaim, noteClaim, claimStood, hx, hc, hw, hf]

theorem notLive_of_none {o : Option Trip} (h : o = none) : ∀ x, o = some x → ¬x.live :=
  fun _ hx => absurd (h.symm.trans hx) nofun

/-- What the end of the record may write, whatever its form. -/
structure ClaimEffect (p q : State) : Prop where
  frame : q = { p with seq := q.seq, adm := q.adm, con := q.con, link := q.link }
  seq : q.seq = { p.seq with
    state := q.seq.state, shdn := q.seq.shdn, runp := q.seq.runp, spd := q.seq.spd, runTimer := q.seq.runTimer
    dwellTimer := q.seq.dwellTimer, idleTimer := q.seq.idleTimer, shedHold := q.seq.shedHold
    agingTimer := q.seq.agingTimer, shedOwed := q.seq.shedOwed, trip := q.seq.trip }
  con : q.con = { p.con with
    releaseSlot := q.con.releaseSlot, presenceDue := q.con.presenceDue, remarked := q.con.remarked }
  ownDemand : p.adm.ownDemand = none → q.adm.ownDemand = none
  agingTimer : p.seq.agingTimer = .stopped → q.seq.agingTimer = .stopped
  link : LinkElse p q
  attention : p.link.attention = true → q.link.attention = true
  driving : p.seq.state.driving = true → q.seq.state.driving = true
  settled : ∀ x, q.seq.trip = some x → ¬x.live

theorem ClaimEffect.refl {p : State} (h : p.seq.trip = none) : ClaimEffect p p :=
  ⟨rfl, rfl, rfl, id, id, ⟨rfl, rfl, rfl, rfl⟩, id, id, notLive_of_none h⟩

/-! ### The three forms (R135, R136, R144) -/

/-- The state of a run (R136). -/
def Purpose.runState : Purpose → SeqState
  | .evacuation => .evacRun
  | .service => .serviceRun

theorem startRun_eq (x : Trip) (p : State) :
    startRun x p = { p with
      seq := { p.seq with
        trip := some { x with phase := .running }, spd := x.step.getD .p25, runp := true, runTimer := .running p.now
        state := x.purpose.runState
        shdn := if p.seq.state = x.purpose.runState then p.seq.shdn else x.purpose.runState == .shedPending }
      link := { p.link with attention := true } } := by
  rw [startRun, goTo_eq]
  cases x.purpose <;> rfl

theorem startRun_effect (x : Trip) (p : State) : ClaimEffect p (startRun x p) := by
  rw [startRun_eq]
  refine ⟨rfl, rfl, rfl, id, id, ⟨rfl, rfl, rfl, rfl⟩, fun _ => rfl, fun _ => ?_, fun y hy => ?_⟩
  · cases x.purpose <;> rfl
  · cases hy
    rintro (h | h) <;> cases h

theorem finishWake_evacuation {x : Trip} (h : x.purpose = .evacuation) (p : State) :
    finishWake x p = { tripEnded p with
      seq := { (tripEnded p).seq with
        state := .landed, shdn := if p.seq.state = .landed then p.seq.shdn else false, dwellTimer := .running p.now }
      con := { p.con with presenceDue := true, remarked := p.con.remarked || p.con.attempt.serves .presence }
      link := { (tripEnded p).link with
        attention := p.link.attention || p.seq.trip.isSome || p.seq.state != .landed } } := by
  rw [finishWake, h, endTrip_ended]
  dsimp only
  rw [enterLanded, goTo_eq]
  exact markPresence_driving rfl

theorem finishWake_service {x : Trip} (h : x.purpose = .service) (p : State) :
    finishWake x p = returned .serviceIdle (tripEnded p) := by
  rw [finishWake, h, endTrip_ended]
  exact returnToOrigin_eq .serviceIdle _

theorem finishWake_effect (x : Trip) (p : State) : ClaimEffect p (finishWake x p) := by
  cases h : x.purpose
  case evacuation =>
    rw [finishWake_evacuation h]
    refine ⟨rfl, rfl, rfl, fun _ => rfl, fun _ => rfl, ⟨rfl, rfl, rfl, rfl⟩, fun hp => ?_, fun _ => rfl,
      notLive_of_none rfl⟩
    simp [hp]
  case service =>
    rw [finishWake_service h]
    refine ⟨rfl, rfl, rfl, fun _ => rfl, fun _ => rfl, ⟨rfl, rfl, rfl, rfl⟩, fun hp => ?_, fun _ => rfl,
      notLive_of_none rfl⟩
    simp [returned, tripEnded, hp]

/-- A CHECK to a reply that waits leaves all else on the link. -/
theorem answerHeld_check (reason : Reason) (detail : Nat) (s : State) :
    ∃ link, answerHeld (.check reason detail) s = { s with link := link } ∧ LinkElse s { s with link := link } ∧
      link.attention = s.link.attention ∧ ∀ id, s.link.reply = .held id →
        link.reply = .sending (linkFrame (statusOctet false true s.link.attention) []) ∧
          link.reason = reason ∧ link.detail = detail := by
  cases h : s.link.reply with
  | held id =>
    exact ⟨(respond (.check reason detail) s).link, by simp only [answerHeld, h]; rfl, ⟨rfl, rfl, rfl, rfl⟩, rfl,
      fun _ _ => ⟨rfl, rfl, rfl⟩⟩
  | _ => exact ⟨s.link, by simp only [answerHeld, h], ⟨rfl, rfl, rfl, rfl⟩, rfl, nofun⟩

/-- The RELEASE of a trip cancelled too late (R144, R155). -/
def tooLateRelease (x : Trip) (p : State) : Release :=
  if p.seq.shedOwed then shedRelease x.id else cancelledRelease x (x.prior.getD { draw := 0, stamp := 0 })

/-- The car back at the origin of a trip cancelled too late, or parked where a shed is owed, before the answer (R144, R155). -/
def cancelledBack (x : Trip) (p : State) : State :=
  tripTakenBack (if p.seq.shedOwed then .parked else x.origin) (if p.seq.shedOwed then .timing p.now else p.seq.shedHold)
    { p.con with releaseSlot := some (tooLateRelease x p) } (p.link.attention || p.seq.trip.isSome) p

theorem endCancelled_back {p : State} (ha : p.con.attempt = .none) (hd : p.seq.state.driving = true) (x : Trip) :
    endCancelled true x p = answerHeld (.check .tooLate x.id.val) (cancelledBack x p) := by
  rw [endCancelled, endTrip_ended]
  dsimp only
  cases ho : p.seq.shedOwed
  · have howed : (tripEnded p).seq.shedOwed = false := ho
    simp only [howed, cancelledBack, tooLateRelease, ho, Bool.false_eq_true, if_false, if_true]
    rw [postRelease_idle (by exact ha), returnToOrigin_eq, tripTakenBack, ← ho]
    rfl
  · have howed : (tripEnded p).seq.shedOwed = true := ho
    simp only [howed, cancelledBack, tooLateRelease, ho, if_true]
    rw [postShed_idle (by exact ha) (by exact hd), enterParked_returned]
    rfl

theorem cancelledBack_effect (x : Trip) (p : State) : ClaimEffect p (cancelledBack x p) := by
  refine ⟨rfl, rfl, rfl, fun _ => rfl, fun _ => rfl, ⟨rfl, rfl, rfl, rfl⟩, fun h => ?_, fun _ => Origin.home_driving _,
    notLive_of_none rfl⟩
  simp [cancelledBack, tripTakenBack, returned, h]

theorem endCancelled_effect {p : State} (ha : p.con.attempt = .none) (hd : p.seq.state.driving = true) (x : Trip) :
    ClaimEffect p (endCancelled true x p) := by
  obtain ⟨link, he, hlink, hattention, -⟩ := answerHeld_check .tooLate x.id.val (cancelledBack x p)
  obtain ⟨hframe, hseq, hcon, hdemand, haging, helse, hatt, hdriving, hsettled⟩ := cancelledBack_effect x p
  rw [endCancelled_back ha hd, he]
  exact ⟨by rw [hframe], hseq, hcon, hdemand, haging, helse.trans hlink, fun h => hattention.trans (hatt h), hdriving,
    hsettled⟩

end Sys2Proof.Machine
end

section
/-!
The completed CLAIM with its stamp offered (R31, R113, R119, R135, R136, R144, R155), and from the three kinds of message O54.
-/

namespace Sys2Proof.Machine

/-! ### Every completed CLAIM (R31, R113, R119) -/

theorem completeClaim_effect (c : Claim) {s : State} (hd : s.seq.state.driving = true) :
    ∃ q, ClaimEffect (claimStood c s) q ∧ completeClaim c s = changeRoster (offerStamp c.stamp s.roster) q := by
  cases hx : s.seq.trip with
  | none => exact ⟨_, .refl hx, completeClaim_tripless c hx⟩
  | some x =>
    by_cases hc : x.cancel = true ∨ s.con.withdrawn = true
    · exact ⟨_, endCancelled_effect (p := claimStood c s) rfl hd x, completeClaim_cancelled c hx hc⟩
    · obtain ⟨hcancel, hwithdrawn⟩ := not_or.mp hc
      rw [Bool.not_eq_true] at hcancel hwithdrawn
      cases hf : x.figures with
      | run a d e f => exact ⟨_, startRun_effect x _, completeClaim_run c hx hcancel hwithdrawn hf⟩
      | wake f => exact ⟨_, finishWake_effect x _, completeClaim_wake c hx hcancel hwithdrawn hf⟩

/-- The stamp offered after the end of the record at most sheds the car (R28, R32, R154). -/
theorem ClaimEffect.moved {c : Claim} {s q : State} (h : ClaimEffect (claimStood c s) q) (hd : s.seq.state.driving = true)
    (r : Roster) : ShedMoved q (changeRoster r q) := by
  have hattempt : q.con.attempt = .none := by rw [h.con]; rfl
  exact changeRoster_moved (h.driving hd) hattempt r

/-- What every completed CLAIM leaves. -/
structure ClaimCompleted (c : Claim) (s k : State) : Prop where
  leaves : OwnOver s k
  settled : ∀ x, k.seq.trip = some x → ¬x.live
  commitment : k.seq.commitment = c.draw
  claimClass : k.seq.claimClass = c.cls
  stamp : k.seq.stamp = c.stamp
  claimSlot : k.con.claimSlot = none
  withdrawn : k.con.withdrawn = false
  ownDemand : k.adm.ownDemand = none
  agingTimer : k.seq.agingTimer = .stopped
  roster : k.roster = offerStamp c.stamp s.roster
  lastClaim : ∀ x, s.seq.trip = some x → k.seq.lastClaim = some { instant := s.now, trip := { x with
    cancel := true, prior := some { draw := s.seq.commitment, stamp := s.seq.stamp } } }

theorem completeClaim_completed (c : Claim) {s : State} (hd : s.seq.state.driving = true) :
    ClaimCompleted c s (completeClaim c s) := by
  obtain ⟨q, hq, he⟩ := completeClaim_effect c hd
  have hk := hq.moved hd (offerStamp c.stamp s.roster)
  have hroster := changeRoster_roster (offerStamp c.stamp s.roster) q
  rw [← he] at hk hroster
  generalize completeClaim c s = k at hk hroster
  have hlink : LinkElse q k := by
    rw [hk.frame]
    exact ⟨rfl, rfl, rfl, rfl⟩
  have hframe : k = { claimStood c s with
      roster := k.roster, seq := k.seq, adm := k.adm, con := k.con, link := k.link } := by
    conv_lhs => rw [hk.frame, hq.frame]
    rw [hk.frame]
  have hcon : k.con = { (claimStood c s).con with
      releaseSlot := k.con.releaseSlot, claimSlot := k.con.claimSlot, presenceDue := k.con.presenceDue
      remarked := k.con.remarked } := by
    rw [hk.con, hq.con]
  have hseq : k.seq = { k.seq with
      commitment := c.draw, claimClass := c.cls, stamp := c.stamp, lastClaim := (claimStood c s).seq.lastClaim } := by
    rw [hk.seq, hq.seq]
    rfl
  exact {
    leaves := {
      now := by rw [hframe]; rfl
      line := by rw [hframe]; rfl
      supply := by rw [hframe]; rfl
      config := by rw [hframe]; rfl
      pins := by rw [hframe]; rfl
      attempt := congrArg ContentionUnit.attempt hcon
      spoken := congrArg ContentionUnit.spoken hcon
      failures := congrArg ContentionUnit.failures hcon
      presenceTimer := congrArg ContentionUnit.presenceTimer hcon
      link := hq.link.trans hlink
      attention := hk.attention ∘ hq.attention }
    settled := by
      rcases hk.trip with ht | ht
      · rw [ht]
        exact hq.settled
      · exact notLive_of_none ht
    commitment := congrArg Sequencer.commitment hseq
    claimClass := congrArg Sequencer.claimClass hseq
    stamp := congrArg Sequencer.stamp hseq
    claimSlot := hk.claimSlot (congrArg ContentionUnit.claimSlot hq.con)
    withdrawn := congrArg ContentionUnit.withdrawn hcon
    ownDemand := hk.ownDemand (hq.ownDemand rfl)
    agingTimer := hk.agingTimer (hq.agingTimer rfl)
    roster := hroster
    lastClaim := fun x hx => by
      rw [hseq]
      simp only [claimStood, hx, Option.map_some] }

/-! ### A stamp that floors none (R28, R32) -/

/-- No stored stamp moves when this one is offered. -/
def FloorsNone (stamp : Nat) (s : State) : Prop := ∀ r ∈ s.roster.records, floored stamp r.stamp = r.stamp

theorem offerStamp_unchanged {stamp : Nat} {s : State} (h : FloorsNone stamp s) :
    ¬RosterChange s.roster.records (offerStamp stamp s.roster).records := by
  rw [RosterChange, not_not]
  unfold offerStamp
  split
  · rfl
  · split
    · rw [List.map_map]
      exact List.map_congr_left fun r hr => by simp [h r hr]
    · rfl

theorem changeRoster_unfloored {c : Claim} {s q : State} (hq : ClaimEffect (claimStood c s) q) (h : FloorsNone c.stamp s) :
    changeRoster (offerStamp c.stamp s.roster) q = { q with roster := offerStamp c.stamp s.roster } := by
  have hroster : q.roster = s.roster := by
    rw [hq.frame]
    rfl
  exact changeRoster_same (by rw [hroster]; exact offerStamp_unchanged h)

/-! ### The completed CLAIM of a run, of a wake, of a trip cancelled (R135, R136, R144, R145, R147, R155) -/

section
variable {c : Claim} {s : State} {x : Trip} (hd : s.seq.state.driving = true) (hx : s.seq.trip = some x)
include hd hx

theorem completeClaim_running {a d e f : StepFigures} (hc : x.cancel = false) (hw : s.con.withdrawn = false)
    (hf : x.figures = .run a d e f) {v : SpeedStep} (hv : x.step = some v) :
    let k := completeClaim c s
    k.seq.trip = some { x with phase := .running } ∧ k.seq.spd = v ∧ k.seq.runp = true ∧
      k.seq.runTimer = .running s.now ∧ k.link.attention = true ∧
      (x.purpose = .evacuation → k.seq.state = .evacRun) ∧
      (x.purpose = .service → k.seq.state = .serviceRun ∨ k.seq.state = .shedPending) ∧
      (x.purpose = .service → FloorsNone c.stamp s → k.seq.state = .serviceRun) := by
  intro k
  have hq := startRun_effect x (claimStood c s)
  have he : k = changeRoster _ _ := completeClaim_run c hx hc hw hf
  have hk : ShedMoved (startRun x (claimStood c s)) k := he ▸ hq.moved hd _
  have hsame := changeRoster_unfloored (c := c) hq
  rw [← he] at hsame
  rw [startRun_eq] at hk hsame
  have htrip : k.seq.trip = some { x with phase := .running } := by
    cases hp : x.purpose
    case evacuation =>
      obtain ⟨hstill, -⟩ := hk.still (.inl (by rw [hp]; rfl))
      rw [hstill, hp]
    case service => exact (hk.running (by rw [hp]; rfl)).1.trans (by rw [hp])
  refine ⟨htrip, ?_, ?_, ?_, hk.attention rfl, fun hp => ?_, fun hp => ?_, fun hp hfloor => ?_⟩
  · rw [hk.seq, hv]
    rfl
  · rw [hk.seq]
  · rw [hk.seq]
    rfl
  · obtain ⟨hstill, -⟩ := hk.still (.inl (by rw [hp]; rfl))
    rw [hstill, hp]
    rfl
  · exact (hk.running (by rw [hp]; rfl)).2
  · rw [hsame hfloor, hp]
    rfl

theorem completeClaim_woken {f : StepFigures} (hc : x.cancel = false) (hw : s.con.withdrawn = false)
    (hf : x.figures = .wake f) :
    let k := completeClaim c s
    k.seq.trip = none ∧ k.seq.runp = s.seq.runp ∧ k.seq.spd = s.seq.spd ∧ k.con.presenceDue = true ∧
      k.link.attention = true ∧
      (x.purpose = .evacuation → k.seq.state = .landed ∧ k.seq.dwellTimer = .running s.now) ∧
      (x.purpose = .service → FloorsNone c.stamp s →
        k.seq.state = .serviceIdle ∧ k.seq.idleTimer = .running s.now) := by
  intro k
  have hq := finishWake_effect x (claimStood c s)
  have he : k = changeRoster _ _ := completeClaim_wake c hx hc hw hf
  have hk : ShedMoved (finishWake x (claimStood c s)) k := he ▸ hq.moved hd _
  have hsame := changeRoster_unfloored (c := c) hq
  rw [← he] at hsame
  have hsome : (claimStood c s).seq.trip = some x := hx
  cases hp : x.purpose
  case evacuation =>
    rw [finishWake_evacuation hp] at hk
    obtain ⟨hstill, -⟩ := hk.still (.inr (.inl rfl))
    refine ⟨by rw [hstill]; rfl, by rw [hstill]; rfl, by rw [hstill]; rfl, hk.presenceDue rfl, hk.attention ?_,
      fun _ => ⟨by rw [hstill], by rw [hstill]; rfl⟩, nofun⟩
    simp [hsome]
  case service =>
    rw [finishWake_service hp] at hk hsame
    refine ⟨?_, by rw [hk.seq]; rfl, by rw [hk.seq]; rfl, hk.presenceDue rfl, hk.attention ?_, nofun, fun _ hfloor => ?_⟩
    · rcases hk.trip with ht | ht <;> exact ht
    · simp [returned, tripEnded, hsome]
    · rw [hsame hfloor]
      exact ⟨rfl, rfl⟩

theorem completeClaim_tooLate (hc : x.cancel = true ∨ s.con.withdrawn = true) :
    let k := completeClaim c s
    k.seq.trip = none ∧ k.seq.runp = s.seq.runp ∧ k.con.presenceDue = true ∧ k.link.attention = true ∧
      (∀ id, s.link.reply = .held id → k.link.reply = .sending (linkFrame (statusOctet false true true) []) ∧
        k.link.reason = .tooLate ∧ k.link.detail = x.id.val) ∧
      (∀ p, x.prior = some p → s.seq.shedOwed = false → FloorsNone c.stamp s →
        k.seq.state = x.origin.home ∧ k.con.releaseSlot = some (cancelledRelease x p)) ∧
      (s.seq.shedOwed = true → k.seq.state = .parked ∧ k.seq.shedOwed = false ∧
        k.con.releaseSlot = some (shedRelease x.id) ∧ k.seq.shedHold = .timing s.now) := by
  intro k
  have hq := endCancelled_effect (p := claimStood c s) rfl hd x
  have he : k = changeRoster _ _ := completeClaim_cancelled c hx hc
  have hk : ShedMoved (endCancelled true x (claimStood c s)) k := he ▸ hq.moved hd _
  have hsame := changeRoster_unfloored (c := c) hq
  rw [← he] at hsame
  obtain ⟨link, hanswered, -, hattention, hreply⟩ := answerHeld_check .tooLate x.id.val (cancelledBack x (claimStood c s))
  rw [endCancelled_back (p := claimStood c s) rfl hd, hanswered] at hk hsame
  have hon : (cancelledBack x (claimStood c s)).link.attention = true := by
    have hsome : (claimStood c s).seq.trip = some x := hx
    simp [cancelledBack, tripTakenBack, returned, hsome]
  refine ⟨?_, by rw [hk.seq]; rfl, hk.presenceDue rfl, hk.attention (hattention.trans hon), fun id hid => ?_,
    fun p hp ho hfloor => ?_, fun ho => ?_⟩
  · rcases hk.trip with ht | ht <;> exact ht
  · rw [hon] at hreply
    rw [hk.frame]
    exact hreply id hid
  · have howed : (claimStood c s).seq.shedOwed = false := ho
    rw [hsame hfloor]
    simp [cancelledBack, tripTakenBack, tooLateRelease, returned, howed, hp]
  · have howed : (claimStood c s).seq.shedOwed = true := ho
    have hparked : cancelledBack x (claimStood c s) = tripTakenBack .parked (.timing s.now)
        { (claimStood c s).con with releaseSlot := some (shedRelease x.id) }
        (s.link.attention || s.seq.trip.isSome) (claimStood c s) := by
      simp only [cancelledBack, tooLateRelease, howed, if_true]
      rfl
    rw [hparked] at hk
    obtain ⟨hstill, hcon, hhold⟩ := hk.still (.inr (.inr rfl))
    exact ⟨by rw [hstill]; rfl, by rw [hstill]; rfl, by rw [hcon]; rfl, hhold nofun⟩

end

/-! ### The own message completes (R73, R87, R113) -/

/-- After a completion whose record is not evaluated, the reference point starts its round and does no more. -/
theorem referencePoint_settled {b : Body} {s k : State} (h : OwnOver s k) (hk : ∀ x, k.seq.trip = some x → ¬x.live)
    (reference : Nat) :
    referencePoint reference (noteStart b k) = atReference reference { k with supply := startNoted b k } := by
  rw [noteStart_idle h.attempt, referencePoint_spoken (by exact h.spoken), evaluate_settled (by exact hk)]

theorem ownCompleted_over (b : Body) {s : State} (hd : s.seq.state.driving = true) : OwnOver s (ownCompleted b s) := by
  cases b with
  | release r => exact completeRelease_over r s
  | claim c => exact (completeClaim_completed c hd).leaves
  | presence p => exact completePresence_over s

/-- Settles O54: the filters and the contention unit are the same for the three kinds, and each kind has its own completion;
after a CLAIM the record is RUNNING or NONE, so the reference point evaluates nothing. -/
theorem ownMessageCompletes : Obligations.OwnMessageCompletes := by
  unfold Obligations.OwnMessageCompletes
  intro s changes reference u b y hactive hsending hattempt hd hend hown
  obtain ⟨link, hoffered, hreply, hobserved⟩ := offerObservation_ownTaken b reference u s
  have hexec := execEndOfActivity_own hactive hsending hattempt hend hown
  rw [hoffered] at hexec
  have htaken : (ownTaken link (max s.now (reference + 120)) u s).seq.state.driving = true := hd
  have hover := ownCompleted_over b htaken
  obtain ⟨hnow, htransmitter, hquiet, hnone, hspoken, hfailures, hpresence, hround, hfilters, hrestart, hsettle, hconfig,
      hpins⟩ := hover.ends (reference := reference) hobserved
  refine ⟨_, hexec, hnow, htransmitter, hquiet, hnone, hspoken, hfailures, hpresence, hround, hfilters, hrestart, hsettle,
    hconfig, hpins, ?_, ?_, ?_⟩
  · rintro r rfl
    exact referencePoint_release_completed r _ reference
  · rintro p rfl
    exact referencePoint_presence_completed _ reference
  · rintro c rfl
    have hk := completeClaim_completed c htaken
    have ht : referencePoint reference (noteStart (.claim c) (ownCompleted (.claim c) _)) = _ :=
      referencePoint_settled (b := .claim c) hk.leaves hk.settled reference
    have hinstant := hnow
    rw [ht] at hinstant ⊢
    rw [hinstant]
    refine ⟨hk.commitment, hk.claimClass, hk.stamp, hk.claimSlot, hk.withdrawn, hk.ownDemand, hk.agingTimer, hk.roster,
      hk.lastClaim, fun x a d e f v hx hc hw hf hv => completeClaim_running (c := c) htaken hx hc hw hf hv,
      fun x f hx hc hw hf => completeClaim_woken (c := c) htaken hx hc hw hf, fun x hx hc => ?_⟩
    obtain ⟨htrip, hrunp, hdue, hattention, hanswer, hspared, howed⟩ :=
      completeClaim_tooLate (c := c) htaken hx hc
    exact ⟨htrip, hrunp, hdue, hattention, fun id hid => hanswer id (hreply.trans hid), hspared, howed⟩

end Sys2Proof.Machine
end

section
/-!
A failed attempt on a line whose activity has not begun (R86, R87): the instants that O53 compares are not the ones the receiver
counts from, and this refutes O53.
-/

namespace Sys2Proof.Machine

/-- A message of one octet, FE hex, on its way since instant 0: its start bit and its first data bit are dominant, the others
recessive, and its last stop bit ends at 100 µs. -/
def shortSending : Sending := { octets := [0xFE], startedAt := 0 }

/-- The message is being sent while the receiver, not ACTIVE, still counts instants from 20 µs. Two changes are told: by that count
they come at 20 µs and at 95 µs, the second in the middle of the last stop bit. -/
def sendingUnbegun : State :=
  { seq := { state := .assess }
    con := { attempt := .sending (.release { reason := .park, tripId := 1, draw := 0, stamp := 0 }) }
    line := { awaitingGap := false, startedAt := 20, transmitter := some shortSending
              coming := [⟨0, .recessive⟩, ⟨75, .dominant⟩] } }

/-- The first data bit, dominant at 10 µs, begins the activity (R81): the changes then count from there, and the second comes at 85 µs,
before the last stop bit is read back. -/
theorem sendingUnbegun_recounts :
    (sendingUnbegun.line.othersChange ⟨0, .recessive⟩).instant ⟨75, .dominant⟩ = 85 ∧ shortSending.endsAt = 100 := by
  decide

theorem sendingUnbegun_gapFree : GapFree sendingUnbegun.line [⟨0, .recessive⟩, ⟨75, .dominant⟩] :=
  ⟨by decide, by decide, trivial⟩

theorem exec_attemptJoined_sendingUnbegun : exec .attemptJoined sendingUnbegun = .next sendingUnbegun := by rfl

/-- Refutes O53: the statement takes every told change at its instant by the count at the start, and the receiver is not said to be
ACTIVE. In `sendingUnbegun` the own bit at 10 µs begins the activity and the count anew, the dominant change is read before the own
last stop bit, nothing joins and the message goes on. -/
theorem not_attemptFails : ¬ Obligations.AttemptFails := by
  unfold Obligations.AttemptFails
  intro h
  obtain ⟨t, hexec, hidle, -⟩ := h sendingUnbegun _ shortSending .attemptJoined rfl rfl rfl
    (.inl ⟨rfl, [⟨0, .recessive⟩], ⟨75, .dominant⟩, [], rfl, rfl, by decide, by decide, sendingUnbegun_gapFree⟩)
  obtain rfl : sendingUnbegun = t := by
    rw [exec_attemptJoined_sendingUnbegun] at hexec
    exact Host.Outcome.next.inj hexec
  exact absurd hidle (by decide)

end Sys2Proof.Machine
end

section
/-!
Every command answers a next state, leaves the queue alone and, but for a cold reset, the station number (R98): one lemma for each
family of shared operation, and from these O3.
-/

namespace Sys2Proof.Machine

/-! ### The queue and the station number -/

/-- The queue and the station number are as they were. -/
structure PlaceKept (s t : State) : Prop where
  pending : t.pending = s.pending
  station : t.station = s.station

theorem PlaceKept.refl (s : State) : PlaceKept s s := ⟨rfl, rfl⟩

theorem PlaceKept.trans {s t u : State} (h : PlaceKept s t) (g : PlaceKept t u) : PlaceKept s u :=
  ⟨g.pending.trans h.pending, g.station.trans h.station⟩

/-- The outcome is a next state with the same queue and station number. -/
def AnswersNext (s : State) (o : Host.Outcome State Fault Refusal) : Prop := ∃ t, o = .next t ∧ PlaceKept s t

theorem PlaceKept.next {s t : State} (h : PlaceKept s t) : AnswersNext s (.next t) := ⟨t, rfl, h⟩

theorem answersNext_same (s : State) : AnswersNext s (.next s) := (PlaceKept.refl s).next

/-! ### Requests (R167, R168) -/

theorem octetsArrive_placeKept (s : State) : PlaceKept s (octetsArrive s) := by
  unfold octetsArrive
  split
  · exact ⟨rfl, rfl⟩
  · exact ⟨by simp, by simp⟩

theorem discardFrame_placeKept (s : State) : PlaceKept s (discardFrame s) := by
  cases hr : linkReady s
  · rw [discardFrame_lost s hr]; exact ⟨by simp, by simp⟩
  · rw [discardFrame_ready s hr]; exact ⟨rfl, rfl⟩

theorem linkQuiet_placeKept (s : State) : PlaceKept s (linkQuiet s) := by
  rcases linkQuiet_cases s with ⟨-, he⟩ | ⟨since, -, he⟩ <;> rw [he]
  · exact .refl s
  · exact ⟨rfl, rfl⟩

/-- A request touches neither when the judging of it does not. -/
theorem takeRequest_placeKept {act : State → State × Answer} (hact : ∀ u, PlaceKept u (act u).1) (code : Nat)
    (early : Bool) (s : State) : PlaceKept s (takeRequest code early act s) := by
  have hrespond (a : Answer) (u : State) : PlaceKept u (respond a u) := ⟨by simp, by simp⟩
  have htaken : PlaceKept s (requestTaken s) := ⟨rfl, rfl⟩
  cases hr : linkReady s
  · rw [takeRequest_lost code early act s hr]; exact ⟨by simp, by simp⟩
  by_cases hc : configured s = true ∨ early = true
  · rw [takeRequest_taken code early act s hr hc]; exact (htaken.trans (hact _)).trans (hrespond _ _)
  · obtain ⟨hn, rfl⟩ : configured s = false ∧ early = false := by simpa using hc
    rw [takeRequest_early code act s hr hn]; exact htaken.trans (hrespond _ _)

theorem acceptConfiguration_placeKept (values : List Nat) (s : State) : PlaceKept s (acceptConfiguration values s) := by
  unfold acceptConfiguration leaveUnconfigured
  dsimp only
  split <;> exact ⟨by simp, by simp⟩

theorem judgeConfigure_placeKept (record : List Byte) (s : State) : PlaceKept s (judgeConfigure record s).1 := by
  unfold judgeConfigure
  split
  · exact .refl s
  dsimp only
  split
  · exact .refl s
  · exact acceptConfiguration_placeKept _ s

theorem judgeReadObserved_placeKept (s : State) : PlaceKept s (judgeReadObserved s).1 := by
  unfold judgeReadObserved
  split <;> exact ⟨rfl, rfl⟩

theorem restartState_placeKept (s : State) : PlaceKept s (restartState s) := by
  unfold restartState restartValues
  dsimp only
  split <;> exact ⟨by simp, by simp⟩

theorem judgeReport_placeKept (position landing occupancy reserved : Byte) (s : State) :
    PlaceKept s (judgeReport position landing occupancy reserved s).1 := by
  unfold judgeReport
  split
  · exact .refl s
  · exact ⟨by simp [acceptWithState], by simp [acceptWithState]⟩
  · exact .refl s

theorem acceptTrip_placeKept (dir : Direction) (load : Byte) (s : State) : PlaceKept s (acceptTrip dir load s).1 := by
  unfold acceptTrip
  dsimp only
  split <;> split <;> exact ⟨by simp, by simp⟩

theorem judgeTripRequest_placeKept (direction load reserved : Byte) (s : State) :
    PlaceKept s (judgeTripRequest direction load reserved s).1 := by
  have hload : PlaceKept s (loadJudged load s) := ⟨by simp [loadJudged], by simp [loadJudged]⟩
  unfold judgeTripRequest
  split
  · exact .refl s
  split
  · exact .refl s
  dsimp only
  split
  · exact hload
  split
  · exact hload
  · exact hload.trans (acceptTrip_placeKept ..)

theorem cancelByRecord_placeKept (tripId : Byte) (s : State) : PlaceKept s (cancelByRecord tripId s).1 := by
  unfold cancelByRecord
  repeat' split
  all_goals exact ⟨by simp [refuse, acceptWithState], by simp [refuse, acceptWithState]⟩

theorem judgeTripCancel_placeKept (tripId : Byte) (s : State) : PlaceKept s (judgeTripCancel tripId s).1 := by
  unfold judgeTripCancel
  split
  · exact .refl s
  · unfold cancelInFallback
    repeat' split
    all_goals exact ⟨by simp [refuse, acceptWithState], by simp [refuse, acceptWithState]⟩
  · repeat' split
    all_goals first | exact cancelByRecord_placeKept tripId s | exact ⟨by simp [refuse], by simp [refuse]⟩

theorem judgeTripEnd_placeKept (tripId position landing reserved : Byte) (s : State) :
    PlaceKept s (judgeTripEnd tripId position landing reserved s).1 := by
  unfold judgeTripEnd
  repeat' split
  all_goals exact ⟨by simp [refuse, acceptWithState], by simp [refuse, acceptWithState]⟩

theorem judgeServiceSelect_placeKept (value reserved : Byte) (s : State) :
    PlaceKept s (judgeServiceSelect value reserved s).1 := by
  unfold judgeServiceSelect
  repeat' split
  all_goals exact ⟨by simp [refuse, acceptWithState], by simp [refuse, acceptWithState]⟩

theorem judgeCallEvent_placeKept (source reserved : Byte) (s : State) :
    PlaceKept s (judgeCallEvent source reserved s).1 := by
  unfold judgeCallEvent
  repeat' split
  all_goals exact ⟨by simp [refuse, acceptWithState], by simp [refuse, acceptWithState]⟩

/-! ### The commands that answer in several ways -/

theorem execSense_answers (s : State) : AnswersNext s (execSense s) := by
  refine PlaceKept.next ?_
  split
  · exact (octetsArrive_placeKept s).trans ⟨by simp, by simp⟩
  · exact octetsArrive_placeKept s

theorem execRequestDiscarded_answers (cause : DiscardCause) (s : State) : AnswersNext s (execRequestDiscarded cause s) := by
  refine PlaceKept.next ?_
  split
  · exact (octetsArrive_placeKept s).trans ⟨by simp, by simp⟩
  · exact discardFrame_placeKept s

/-- Every command but a cold reset answers a next state with the queue and the station number as they were. A request is judged by its
own lemma; every branch of the other commands is a chain of shared operations, each of which keeps both (Laws/Frames). -/
theorem exec_answersNext (c : Instr) (hc : ∀ pins, c ≠ .coldReset pins) (s : State) : AnswersNext s (exec c s) := by
  cases c
  case coldReset pins => exact absurd rfl (hc pins)
  case configure record =>
    refine PlaceKept.next ?_
    split
    · exact takeRequest_placeKept (judgeConfigure_placeKept record) ..
    · exact discardFrame_placeKept s
  case query => exact (takeRequest_placeKept (fun _ => ⟨rfl, rfl⟩) ..).next
  case sense => exact execSense_answers s
  case clearConditions => exact (takeRequest_placeKept (fun _ => ⟨rfl, rfl⟩) ..).next
  case readObserved => exact (takeRequest_placeKept judgeReadObserved_placeKept ..).next
  case readStation station => exact (takeRequest_placeKept (fun u => by rw [judgeReadStation_keeps]; exact .refl u) ..).next
  case carReport p l o r => exact (takeRequest_placeKept (judgeReport_placeKept p l o r) ..).next
  case restart => exact (takeRequest_placeKept restartState_placeKept ..).next
  case tripRequest d l r => exact (takeRequest_placeKept (judgeTripRequest_placeKept d l r) ..).next
  case tripCancel tripId => exact (takeRequest_placeKept (judgeTripCancel_placeKept tripId) ..).next
  case tripEnd i p l r => exact (takeRequest_placeKept (judgeTripEnd_placeKept i p l r) ..).next
  case serviceSelect v r => exact (takeRequest_placeKept (judgeServiceSelect_placeKept v r) ..).next
  case callEvent source r => exact (takeRequest_placeKept (judgeCallEvent_placeKept source r) ..).next
  case unknownRequestCode code fields => exact (takeRequest_placeKept (fun u => .refl u) ..).next
  case requestDiscarded cause => exact execRequestDiscarded_answers cause s
  case requestGapExpiry => exact ((octetsArrive_placeKept s).trans (linkQuiet_placeKept _)).next
  case discardQuietExpiry =>
    simp only [exec, execDiscardQuietExpiry]
    split
    · exact (linkQuiet_placeKept s).next
    · exact answersNext_same s
  all_goals
    simp only [exec, execReplySent, execTrnChange, execTrnDebounceExpiry, execGokChange, execGokDebounceExpiry,
      execCapChange, execCapDebounceExpiry, execFsnPulse, execAbsenceExpiry, execInWindowHalfSecond, execUnderTimerExpiry,
      execCapacityHoldExpiry, execSettleTimerExpiry, execLineActivityStart, execLongDominantExpiry, execEndOfActivity,
      execRoundClose, execSlotExpiry, execReadbackMismatch, execAttemptJoined, execPresenceDueExpiry, execRecordStale,
      execStartWindowExpiry, execJoinTimerExpiry, execOccupancyHoldExpiry, execRunLimitExpiry, execLandingDwellExpiry,
      execIdleTimerExpiry, execAgingExpiry, execPatienceExpiry, execShedHoldExpiry, execFallbackTripStart,
      execOwnWindowClose, execFirstBaseGap]
    repeat' split
    all_goals exact PlaceKept.next ⟨by simp [openReceiver_eq], by simp [openReceiver_eq]⟩

/-- Settles O3: a cold reset keeps the queue and samples the straps; every other command keeps both. -/
theorem everyCommandAnswersNext : Obligations.EveryCommandAnswersNext := by
  unfold Obligations.EveryCommandAnswersNext
  intro c s
  by_cases hc : ∀ pins, c ≠ .coldReset pins
  · obtain ⟨t, ht, hk⟩ := exec_answersNext c hc s
    exact ⟨t, ht, hk.pending, fun _ => hk.station⟩
  · obtain ⟨pins, rfl⟩ := not_forall_not.mp hc
    refine ⟨_, rfl, ?_, fun h => absurd rfl (h pins)⟩
    split <;> rfl

end Sys2Proof.Machine
end

section
/-!
The round's close (R100, R101, R107) and the slot of a waiting attempt (R85, R105, R109): O50 and O52.
-/

namespace Sys2Proof.Machine

/-! ### The close of the round (R101) -/

theorem chooseSlot_failures (instant : Nat) (offer : Option (Option SpeedStep × StepFigures)) (s : State) :
    (chooseSlot instant offer s).con.failures = s.con.failures := by
  rcases chooseSlot_cases instant offer s with he | ⟨-, ⟨r, -, he⟩ | ⟨-, p, o, x, -, -, -, he⟩ | ⟨-, hdue, he⟩⟩ <;> rw [he]
  · rfl
  · rfl
  · rw [choosePresence_due instant hdue]
    rfl

/-- A reference point counts no failure (R100, R114). -/
theorem referencePoint_failures (instant : Nat) (s : State) :
    (referencePoint instant s).con.failures = s.con.failures := by
  rw [referencePoint_eq, chooseSlot_failures, (evaluate_leaves (atReference instant s)).con]
  rfl

/-- What was spoken and whether the round is open move nothing that a choice looks at (R103, R107). -/
theorem roundClosed_chosen {since instant : Nat} {s t : State} (h : Chosen instant (roundClosed since s) t) :
    Chosen instant s t := h

/-- Settles O50: the close is a reference point of an open round with nothing spoken, and the choice is that point's. -/
theorem roundCloses : Obligations.RoundCloses := by
  unfold Obligations.RoundCloses
  intro s since htimer
  refine ⟨_, execRoundClose_running htimer, ?_, ?_, ?_, ?_, fun hattempt hdriving => ?_, fun hsilent hnone => ?_, ?_, ?_,
    ?_, ?_, ?_, ?_, referencePoint_failures ..⟩
  case refine_1 =>
    simp only [referencePoint_keeps]
    rfl
  case refine_4 => simp [referencePoint_kept]
  case refine_5 =>
    have hm : mayChoose (roundClosed since s) = true := (mayChoose_iff _).mpr ⟨rfl, rfl, hdriving, hattempt⟩
    rw [(referencePoint_keeps ..).1]
    exact roundClosed_chosen (referencePoint_chosen hm)
  case refine_6 => exact referencePoint_attempt (.inr (.inr ⟨hsilent, hnone⟩))
  all_goals simp [roundClosed]

/-! ### The message begun (R79, R81, R85) -/

/-- A dominant edge on a quiet line begins an activity, whatever an earlier one left of its octets (R81). -/
theorem LineUnit.dominantEdge_begins {u : LineUnit} (hactive : u.active = false) (hgap : u.awaitingGap = false) (t : Nat) :
    u.dominantEdge t = { u with
      level := .dominant, changedAt := t, longTimer := .running t, active := true, startedAt := t
      inHand := some { start := t }, inTimeUntil := 0, octets := [], octetCount := 0, frameMark := false
      longMark := false } := by
  simp [LineUnit.dominantEdge, hactive, hgap]

theorem LineUnit.SameButOctets.frame {u v : LineUnit} (h : u.SameButOctets v) : v = { u with
    inHand := v.inHand, inTimeUntil := v.inTimeUntil, octets := v.octets, octetCount := v.octetCount
    frameMark := v.frameMark } := by
  obtain ⟨h1, h2, h3, h4, h5, h6, h7, h8, h9, h10, h11, h12, h13, h14⟩ := h
  cases u
  cases v
  simp_all

theorem LineUnit.setLevel_begins {u : LineUnit} (hlevel : u.level = .recessive) (hactive : u.active = false)
    (hgap : u.awaitingGap = false) (t : Nat) : u.setLevel t .dominant = { u with
      level := .dominant, changedAt := t, longTimer := .running t, active := true, startedAt := t
      inHand := some { start := t }, inTimeUntil := 0, octets := [], octetCount := 0, frameMark := false
      longMark := false } := by
  have hsame := u.sampleTo_same t
  have hedge := LineUnit.dominantEdge_begins (hsame.active.trans hactive) (hsame.awaitingGap.trans hgap) t
  have hset : u.setLevel t .dominant = (u.sampleTo t).dominantEdge t := by simp [LineUnit.setLevel, hlevel]
  rw [hset, hedge, hsame.frame]

/-- Every message opens with a start bit (R80). -/
theorem sentLevel_zero {octets : List Byte} (h : octets ≠ []) : sentLevel octets 0 = .dominant := by
  obtain ⟨b, rest, rfl⟩ := List.exists_cons_of_ne_nil h
  rfl

theorem Sending.levelAt_startedAt {x : Sending} (h : x.octets ≠ []) : x.levelAt x.startedAt = .dominant := by
  simp [Sending.levelAt, sentLevel_zero h]

/-- The own start bit on a line that follows it begins an activity (R79, R81). -/
theorem LineUnit.begin_follows {u : LineUnit} {x : Sending} (hx : x.octets ≠ []) (hf : u.follows = true)
    (hlevel : u.level = .recessive) (hactive : u.active = false) (hgap : u.awaitingGap = false) :
    u.begin x = { u with
      transmitter := some x, readTo := max u.readTo x.startedAt, level := .dominant, changedAt := x.startedAt
      longTimer := .running x.startedAt, active := true, startedAt := x.startedAt
      inHand := some { start := x.startedAt }, inTimeUntil := 0, octets := [], octetCount := 0, frameMark := false
      longMark := false } := by
  have hline : LineUnit.lineAt { u with transmitter := some x } x.startedAt = .dominant := by
    simp [LineUnit.lineAt, LineUnit.driven, hf, Sending.levelAt_startedAt hx]
  have hset := LineUnit.setLevel_begins (u := { u with transmitter := some x }) hlevel hactive hgap x.startedAt
  rw [LineUnit.begin, LineUnit.settle, hline, hset]

/-- A line that does not follow the driver stays as the others leave it (log 6). -/
theorem LineUnit.begin_unfollowed {u : LineUnit} (x : Sending) (hf : u.follows = false) (ho : u.others = .recessive)
    (hlevel : u.level = .recessive) :
    u.begin x = { u with transmitter := some x, readTo := max u.readTo x.startedAt } := by
  have hline : LineUnit.lineAt { u with transmitter := some x } x.startedAt = u.level := by
    simp [LineUnit.lineAt, hf, ho, hlevel]
  have hset := LineUnit.setLevel_same x.startedAt { u with transmitter := some x }
  rw [LineUnit.begin, LineUnit.settle, hline]
  exact congrArg (fun v => { v with readTo := max u.readTo x.startedAt }) hset

/-! ### The activity reported (R81, R101, R110) -/

theorem setLine_begins {u : LineUnit} {s : State} (hu : u.active = true) (hs : s.line.active = false) :
    setLine u s = reportActivity { s with line := u } := by simp [setLine, hu, hs]

theorem setLine_within {u : LineUnit} {s : State} (h : u.active = s.line.active) :
    setLine u s = { s with line := u } := by simp [setLine, h]

/-- With no attempt waiting the report stops the round timer and does no more (R101). -/
theorem reportActivity_idle {s : State} (h : ∀ b, s.con.attempt ≠ .waiting b) :
    reportActivity s = { s with con := { s.con with roundTimer := .stopped } } :=
  abandonAttempt_idle (s := { s with con := { s.con with roundTimer := .stopped } }) h

/-! ### The slot (R85, R105, R109) -/

theorem encodeMessage_ne_nil (m : Message) : encodeMessage m ≠ [] := by
  simp [encodeMessage, withCrc, messageOctets]

/-- The message handed over at a slot that falls at an instant (R105, R108). -/
def slotSending (instant : Nat) (b : Body) (s : State) : Sending :=
  { octets := encodeMessage { station := s.station, body := handedContent s b }, startedAt := instant }

/-- The attempt is SENDING, its slot timer stopped, before the line is read (R109). -/
def slotTaken (instant : Nat) (b : Body) (s : State) : State :=
  { s with now := instant, con := { s.con with attempt := .sending (handedContent s b), slotDeadline := none } }

theorem slotTaken_notWaiting (instant : Nat) (b : Body) (s : State) (c : Body) :
    (slotTaken instant b s).con.attempt ≠ .waiting c := Attempt.noConfusion

section
variable {s : State} {b : Body} {deadline : Nat}

theorem execSlotExpiry_begins (hb : s.con.attempt = .waiting b) (hd : s.con.slotDeadline = some deadline)
    (hlevel : s.line.level = .recessive) (hactive : s.line.active = false) (hdriving : s.seq.state.driving = true) :
    execSlotExpiry s = .next (setLine (s.line.begin (slotSending (max s.now deadline) b s))
      (slotTaken (max s.now deadline) b s)) := by
  have hready : (passTo deadline s).line.level = .recessive ∧ (passTo deadline s).line.active = false ∧
      (passTo deadline s).seq.state.driving := ⟨hlevel, hactive, hdriving⟩
  simp only [execSlotExpiry, hb, hd]
  rw [if_pos hready]
  rfl

theorem execSlotExpiry_abandons (hb : s.con.attempt = .waiting b) (hd : s.con.slotDeadline = some deadline)
    (hlevel : s.line.level = .dominant) : execSlotExpiry s = .next (abandonAttempt (passTo deadline s)) := by
  have hbusy : ¬((passTo deadline s).line.level = .recessive ∧ (passTo deadline s).line.active = false ∧
      (passTo deadline s).seq.state.driving) := by simp [hlevel]
  simp only [execSlotExpiry, hb, hd]
  rw [if_neg hbusy]

end

section
variable {instant : Nat} {s : State}

/-- The message begun on a line that follows it: an activity under way, the round timer stopped (R81, R85, R101). -/
def slotFollowed (instant : Nat) (b : Body) (s : State) : State :=
  { slotTaken instant b s with
    con := { (slotTaken instant b s).con with roundTimer := .stopped }
    line := { s.line with
      transmitter := some (slotSending instant b s), readTo := max s.line.readTo instant, level := .dominant
      changedAt := instant, longTimer := .running instant, active := true, startedAt := instant
      inHand := some { start := instant }, inTimeUntil := 0, octets := [], octetCount := 0, frameMark := false
      longMark := false } }

/-- The message begun on a line that does not follow it (log 6). -/
def slotUnfollowed (instant : Nat) (b : Body) (s : State) : State :=
  { slotTaken instant b s with
    line := { s.line with
      transmitter := some (slotSending instant b s), readTo := max s.line.readTo instant } }

theorem setLine_slotFollowed (b : Body) (hf : s.line.follows = true) (hlevel : s.line.level = .recessive)
    (hactive : s.line.active = false) (hgap : s.line.awaitingGap = false) :
    setLine (s.line.begin (slotSending instant b s)) (slotTaken instant b s) = slotFollowed instant b s := by
  have hbegin := LineUnit.begin_follows (x := slotSending instant b s) (encodeMessage_ne_nil _) hf hlevel hactive hgap
  have hquiet : (slotTaken instant b s).line.active = false := hactive
  rw [hbegin, setLine_begins rfl hquiet]
  exact reportActivity_idle (slotTaken_notWaiting instant b s)

theorem setLine_slotUnfollowed (b : Body) (hf : s.line.follows = false) (hothers : s.line.others = .recessive)
    (hlevel : s.line.level = .recessive) :
    setLine (s.line.begin (slotSending instant b s)) (slotTaken instant b s) = slotUnfollowed instant b s := by
  rw [LineUnit.begin_unfollowed _ hf hothers hlevel]
  exact setLine_within (s := slotTaken instant b s) rfl

end

/-- The own start bit is being driven at the instant of the slot (R79, R85). -/
theorem slotSending_levelAt (instant : Nat) (b : Body) (s : State) : (slotSending instant b s).levelAt instant = .dominant :=
  Sending.levelAt_startedAt (x := slotSending instant b s) (encodeMessage_ne_nil _)

/-- Settles O52: a line that follows the driver begins an activity with the own start bit, one that does not stays as it is, and a
dominant one finds the attempt abandoned. -/
theorem slotBeginsMessage : Obligations.SlotBeginsMessage := by
  unfold Obligations.SlotBeginsMessage
  refine ⟨fun s b deadline hb hd hlevel hothers hactive hgap hdriving => ?_, fun s b deadline hb hd hlevel => ?_⟩
  · have hexec := execSlotExpiry_begins hb hd hlevel hactive hdriving
    have hkind : b.kind ≠ .release → handedContent s b = b := by cases b <;> simp [handedContent, Body.kind]
    have hrelease (r r' : Release) (hr : b = .release r) (hslot : s.con.releaseSlot = some r') :
        handedContent s b = .release r' := by simp [handedContent, hr, hslot]
    have hdriven := slotSending_levelAt (max s.now deadline) b s
    cases hf : s.line.follows with
    | true =>
      rw [setLine_slotFollowed b hf hlevel hactive hgap] at hexec
      refine ⟨_, handedContent s b, hexec, rfl, rfl, hkind, hrelease, rfl, hdriven, rfl, ?_, rfl, fun _ => rfl,
        fun h => absurd h Bool.noConfusion⟩
      simp [lineLevel, LineUnit.lineAt, LineUnit.driven, slotFollowed, slotTaken, hf, hdriven]
    | false =>
      rw [setLine_slotUnfollowed b hf hothers hlevel] at hexec
      refine ⟨_, handedContent s b, hexec, rfl, rfl, hkind, hrelease, rfl, hdriven, hlevel, ?_, rfl,
        fun h => absurd h Bool.noConfusion, fun _ => rfl⟩
      simp [lineLevel, LineUnit.lineAt, slotUnfollowed, hf, hothers, hlevel]
  · have habandoned := abandonAttempt_abandoned (passTo deadline s)
    obtain ⟨hreleaseSlot, hclaimSlot, hpresenceDue, hfailures⟩ := abandonAttempt_slots (passTo deadline s)
    refine ⟨_, execSlotExpiry_abandons hb hd hlevel, by simp, (habandoned.1 b hb).1, habandoned, ?_, by simp, hreleaseSlot,
      hclaimSlot, hpresenceDue, hfailures⟩
    rw [(abandonAttempt_lost (passTo deadline s)).frame]
    rfl

end Sys2Proof.Machine
end

section
/-!
The run limit (R143, R161): the car stopped and locked out, the RELEASE posted, ASSESS entered or FALLBACK kept; O57.
-/

namespace Sys2Proof.Machine

/-! ### Conditions, lockout and RELEASE, as one update each (R43, R105, R128) -/

theorem raise_eq (k : Condition) (s : State) :
    ∃ attention, raise k s = { s with
        adm := { s.adm with conditions := s.adm.conditions.raised k }
        link := { s.link with attention := attention } } ∧
      (s.link.attention = true → attention = true) := by
  by_cases h : s.adm.conditions.holds k = true
  · have hraised : s.adm.conditions.raised k = s.adm.conditions := by rw [← raise_conditions k s, raise, if_pos h]
    exact ⟨s.link.attention, by rw [raise, if_pos h, hraised], id⟩
  · exact ⟨true, by rw [raise, if_neg h]; rfl, fun _ => rfl⟩

/-! ### The run limit (R143, R161) -/

theorem execRunLimitExpiry_running {s : State} {x : Trip} {since : Nat} (hx : s.seq.trip = some x)
    (hp : x.phase = .running) (ht : s.seq.runTimer = .running since) :
    execRunLimitExpiry s = .next (if s.seq.state = .fallback
      then overtimeFallback (passTo (since + (conf s).runLimit * 1000000) s)
      else overtimeRun x (passTo (since + (conf s).runLimit * 1000000) s)) := by
  simp only [execRunLimitExpiry, hx]
  rw [if_pos ⟨hp, by rw [ht]; rfl⟩, ht]
  rfl

/-- The car stopped by the run limit: RUNP negated, OVERTIME raised, the car locked out (R128, R143). -/
def overtimeStopped (due remarked attention : Bool) (s : State) : State :=
  { s with
    seq := { s.seq with runp := false, spd := .p25, lockout := true }
    adm := { s.adm with conditions := { s.adm.conditions with overtime := true } }
    con := { s.con with presenceDue := due, remarked := remarked }
    link := { s.link with attention := attention } }

theorem overtimeStop_eq (s : State) :
    ∃ due remarked attention, setLockout true (raise .overtime (stopRun s)) = overtimeStopped due remarked attention s ∧
      (s.seq.state.driving = false → due = s.con.presenceDue ∧ remarked = s.con.remarked) := by
  obtain ⟨attention, hraise, -⟩ := raise_eq .overtime (stopRun s)
  obtain ⟨due, remarked, hlock, hsilent⟩ := lockoutBy_eq .lost (raise .overtime (stopRun s))
  rw [hraise] at hlock hsilent
  exact ⟨due, remarked, attention, by rw [hraise]; exact hlock, hsilent⟩

/-- The RELEASE of a run that the limit has ended (R143). -/
def overtimeRelease (x : Trip) (s : State) : Release :=
  { reason := .overtime, tripId := x.id, draw := ((conf s).stby : Int)
    stamp := if (conf s).stby = 0 then 0 else s.seq.stamp }

/-- The stopped run's record discarded, with its timers (R134, R143). -/
def overtimeDiscarded (due remarked : Bool) (s : State) : State :=
  { overtimeStopped due remarked true s with
    seq := { (overtimeStopped due remarked true s).seq with trip := none, agingTimer := .stopped, runTimer := .stopped }
    adm := { (overtimeStopped due remarked true s).adm with patience := .stopped, ownDemand := none } }

/-- The run over, ASSESS waiting for a new report with this contention unit (R127, R143). -/
def overtimeAssessed (c : ContentionUnit) (s : State) : State :=
  { s with
    seq := { s.seq with
      state := .assess, runp := false, spd := .p25, shdn := false, lockout := true, trip := none
      runTimer := .stopped, agingTimer := .stopped, report := { s.seq.report with fresh := false } }
    adm := { s.adm with
      conditions := { s.adm.conditions with overtime := true }, patience := .stopped, ownDemand := none }
    con := c
    link := { s.link with attention := true } }

theorem overtimeRun_eq {s : State} {x : Trip} (hx : s.seq.trip = some x) (hs : s.seq.state ≠ .assess) :
    ∃ c, overtimeRun x s = overtimeAssessed c s ∧ ReleaseIn (overtimeRelease x s) s.con c ∧ c.presenceDue = true := by
  obtain ⟨due, remarked, attention, hstop, -⟩ := overtimeStop_eq s
  have hdiscard : discardTrip (overtimeStopped due remarked attention s) = overtimeDiscarded due remarked s := by
    rw [discardTrip, endTrip_some (s := overtimeStopped due remarked attention s) hx]
    rfl
  obtain ⟨c, attention', hpost, hrelease, -⟩ :=
    postRelease_releaseIn (s := overtimeDiscarded due remarked s) rfl (overtimeRelease x s)
  refine ⟨{ c with presenceDue := true, remarked := c.remarked || c.attempt.serves .presence }, ?_, ?_, rfl⟩
  · have hrun : overtimeRun x s = enterAssess { postRelease (overtimeRelease x s) (overtimeDiscarded due remarked s) with
        seq := { (postRelease (overtimeRelease x s) (overtimeDiscarded due remarked s)).seq with
          report := { s.seq.report with fresh := false } } } := by
      have hreport : (postRelease (overtimeRelease x s) (overtimeDiscarded due remarked s)).seq.report = s.seq.report := by
        rw [hpost]
        rfl
      rw [← hreport]
      unfold overtimeRun
      rw [hstop]
      dsimp only
      rw [hdiscard]
      rfl
    rw [hrun, hpost, enterAssess_stale rfl, goTo_other (by exact hs)]
    exact markPresence_driving rfl
  · rw [ReleaseIn] at hrelease ⊢
    rw [hrelease]
    rfl

/-- The end of a run in FALLBACK as one update: no RELEASE, the commitment STBY (R161). -/
theorem endFallbackRun_eq {s : State} {x : Trip} (hx : s.seq.trip = some x) :
    endFallbackRun s = { s with
      seq := { s.seq with
        trip := none, agingTimer := .stopped, runTimer := .stopped, runp := false, spd := .p25
        commitment := ((conf s).stby : Int) }
      adm := { s.adm with patience := .stopped, ownDemand := none }
      link := { s.link with attention := true } } := by
  rw [endFallbackRun, discardTrip, endTrip_some hx]
  rfl

theorem overtimeFallback_eq {s : State} {x : Trip} (hx : s.seq.trip = some x) (hs : s.seq.state = .fallback) :
    overtimeFallback s = { s with
      seq := { s.seq with
        runp := false, spd := .p25, lockout := true, trip := none, runTimer := .stopped, agingTimer := .stopped
        commitment := ((conf s).stby : Int) }
      adm := { s.adm with
        conditions := { s.adm.conditions with overtime := true }, patience := .stopped, ownDemand := none }
      link := { s.link with attention := true } } := by
  have hend := endFallbackRun_eq hx
  obtain ⟨attention, hraise, hattention⟩ := raise_eq .overtime (endFallbackRun s)
  obtain ⟨due, remarked, hlock, hsilent⟩ := lockoutBy_eq .lost (raise .overtime (endFallbackRun s))
  rw [hraise, hend] at hlock hsilent
  rw [hend] at hraise hattention
  obtain ⟨rfl, rfl⟩ := hsilent (by simp only [hs]; rfl)
  obtain rfl := hattention rfl
  rw [overtimeFallback, hend, hraise]
  exact hlock

/-- Settles O57: outside FALLBACK the stopped car posts its RELEASE and waits in ASSESS, in FALLBACK it stays where it is. -/
theorem runLimitStopsCar : Obligations.RunLimitStopsCar := by
  unfold Obligations.RunLimitStopsCar
  intro s x since hx hp htimer
  have hexec := execRunLimitExpiry_running hx hp htimer
  refine ⟨fun hs => ?_, fun hs => ?_⟩
  · obtain ⟨hassess, hfallback⟩ : s.seq.state ≠ .assess ∧ s.seq.state ≠ .fallback := by
      rcases hs with h | h | h <;> simp [h]
    obtain ⟨c, hrun, hrelease, hdue⟩ :=
      overtimeRun_eq (s := passTo (since + (conf s).runLimit * 1000000) s) hx hassess
    rw [if_neg hfallback, hrun] at hexec
    have hslot : c.releaseSlot = some (overtimeRelease x s) := by
      rw [hrelease]
      rfl
    refine ⟨_, hexec, rfl, rfl, rfl, rfl, rfl, rfl, rfl, rfl, rfl, rfl, hslot, hdue, rfl, rfl, ?_, rfl, rfl⟩
    rw [ReleaseIn] at hrelease
    rw [hrelease]
    simp only [overtimeAssessed, hdue]
    rfl
  · rw [if_pos hs, overtimeFallback_eq (s := passTo (since + (conf s).runLimit * 1000000) s) hx hs] at hexec
    exact ⟨_, hexec, rfl, rfl, rfl, rfl⟩

end Sys2Proof.Machine
end

section
/-!
TRIP-END (R141, R156, R161): what refuses it, the run stopped and ended, the state entered with the RELEASE that goes with it; O35.
-/

namespace Sys2Proof.Machine

/-! ### What a TRIP-END comes to by state, record and fields (R141, R175) -/

theorem takesTripEnd_eq_runs (st : SeqState) : st.takesTripEnd = st.runs := by cases st <;> rfl

/-- A TRIP-END judged by its fields, its record being RUNNING and named (R141). -/
def tripEndJudged (x : Trip) (position landing reserved : Byte) (s : State) : State × Answer :=
  match positionOf position with
  | none => refuse .badField 2 s
  | some p => if reserved ≠ 0 then refuse .badField 4 s else acceptWithState (takeTripEnd x p landing s)

section
variable {s : State} {x : Trip} {tripId position landing reserved : Byte}

theorem judgeTripEnd_isolated (h : s.seq.state = .isolated) :
    judgeTripEnd tripId position landing reserved s = refuse .isolated 0 s := if_pos h

theorem judgeTripEnd_noTrip (hi : s.seq.state ≠ .isolated)
    (h : s.seq.trip = none ∨ (∃ x, s.seq.trip = some x ∧ (x.phase ≠ .running ∨ namesTrip tripId x.id = false)) ∨
      s.seq.state.runs = false) :
    judgeTripEnd tripId position landing reserved s = refuse .noTrip tripId.toNat s := by
  rw [judgeTripEnd, if_neg hi]
  cases hx : s.seq.trip with
  | none => rfl
  | some x =>
    have hrefused : s.seq.state.takesTripEnd = false ∨ x.phase ≠ .running ∨ namesTrip tripId x.id = false := by
      rw [takesTripEnd_eq_runs]
      rcases h with h | ⟨y, hy, h⟩ | h
      · rw [hx] at h
        cases h
      · obtain rfl : x = y := Option.some.inj (hx.symm.trans hy)
        exact .inr h
      · exact .inl h
    exact if_pos hrefused

/-- A RUNNING record named in a state of a run: the fields decide (R141). -/
theorem judgeTripEnd_fields (hx : s.seq.trip = some x) (hp : x.phase = .running) (hn : namesTrip tripId x.id = true)
    (hs : s.seq.state.runs = true) :
    judgeTripEnd tripId position landing reserved s = tripEndJudged x position landing reserved s := by
  have hi : s.seq.state ≠ .isolated := by
    rintro h
    rw [h] at hs
    cases hs
  have htaken : ¬(s.seq.state.takesTripEnd = false ∨ x.phase ≠ .running ∨ namesTrip tripId x.id = false) := by
    simp [takesTripEnd_eq_runs, hs, hp, hn]
  rw [judgeTripEnd, if_neg hi]
  simp only [hx]
  rw [if_neg htaken]
  rfl

end

theorem judgeTripEnd_linkElse (tripId position landing reserved : Byte) (s : State) :
    LinkElse s (judgeTripEnd tripId position landing reserved s).1 := by
  unfold judgeTripEnd
  repeat' split
  all_goals simp [LinkElse, refuse, acceptWithState]

theorem exec_tripEnd {s : State} (h : Taking s) (tripId position landing reserved : Byte) :
    exec (.tripEnd tripId position landing reserved) s = .next (respond
      (judgeTripEnd tripId position landing reserved (requestTaken s)).2
      (judgeTripEnd tripId position landing reserved (requestTaken s)).1) :=
  congrArg Host.Outcome.next (takeRequest_taking h ..)

/-! ### The run ended (R141, R156, R161) -/

/-- The run stopped with the report, the lockout and the marks of the PRESENCE slot that this leaves (R128, R141). -/
def runStopped (p : Position) (landing : Byte) (due remarked : Bool) (s : State) : State :=
  { s with
    seq := { s.seq with
      report := { position := p, landing := landing, fresh := true }, lockout := lockoutAfter p s.seq.lockout
      runTimer := .stopped, runp := false, spd := .p25 }
    con := { s.con with presenceDue := due, remarked := remarked } }

theorem stopAtEnd_eq (p : Position) (landing : Byte) (s : State) :
    ∃ due remarked, stopAtEnd p landing s = runStopped p landing due remarked s ∧
      (s.seq.state.driving = false → due = s.con.presenceDue ∧ remarked = s.con.remarked) := by
  obtain ⟨due, remarked, hlock, hsilent⟩ := lockoutBy_eq p
    { s with seq := { s.seq with report := { position := p, landing := landing, fresh := true } } }
  exact ⟨due, remarked, by rw [stopAtEnd, hlock]; rfl, hsilent⟩

/-- A RELEASE posted while no record is ARMED touches no record (R105, R112). -/
theorem postRelease_unarmed {s : State} (h : ∀ x, s.seq.trip = some x → x.phase ≠ .armed) (r : Release) :
    ∃ c, postRelease r s = { s with con := c } ∧ ReleaseIn r s.con c ∧
      (s.con.attempt.isWaiting .claim = false → c.attempt = s.con.attempt) := by
  cases hw : s.con.attempt.isWaiting .claim
  · refine ⟨(releasePosted r s).con, ?_, rfl, fun _ => rfl⟩
    simp [postRelease, hw, releasePosted]
  · refine ⟨(releasePosted r s).con.noAttempt, ?_, rfl, fun h => absurd h Bool.noConfusion⟩
    obtain ⟨b, hb, hk⟩ : ∃ b, s.con.attempt = .waiting b ∧ b.kind = .claim := by
      cases ha : s.con.attempt <;> simp_all [Attempt.isWaiting]
    have habandoned : abandonAttempt (releasePosted r s) =
        { releasePosted r s with con := (releasePosted r s).con.noAttempt } := by
      rw [abandonAttempt_claim (s := releasePosted r s) hb hk]
      exact claimLost_unarmed h
    rw [postRelease]
    exact (if_pos hw).trans habandoned

/-! ### The state entered at the end of a run (R141, R145 to R147) -/

/-- A state entered from another with PRESENCE due; LANDED and SERVICE_IDLE start their timers. -/
def entered (st : SeqState) (s : State) : State :=
  { s with
    seq := { s.seq with
      state := st, shdn := false
      dwellTimer := if st = .landed then .running s.now else s.seq.dwellTimer
      idleTimer := if st = .serviceIdle then .running s.now else s.seq.idleTimer }
    con := { s.con with presenceDue := true, remarked := s.con.remarked || s.con.attempt.serves .presence }
    link := { s.link with attention := true } }

theorem enterLanded_entered {s : State} (h : s.seq.state ≠ .landed) : enterLanded s = entered .landed s := by
  rw [enterLanded, goTo_other h]
  exact markPresence_driving rfl

theorem enterServiceIdle_entered {s : State} (h : s.seq.state ≠ .serviceIdle) :
    enterServiceIdle s = entered .serviceIdle s := by
  rw [enterServiceIdle, goTo_other h]
  exact markPresence_driving rfl

theorem enterEvacWait_entered {s : State} (h : s.seq.state ≠ .evacWait) : enterEvacWait s = entered .evacWait s := by
  rw [enterEvacWait, goTo_other h]
  exact markPresence_driving rfl

/-- The state in which a run of this purpose ends at this position (R141). -/
def endState : Purpose → Position → SeqState
  | .evacuation, .atLanding => .landed
  | .service, .atLanding => .serviceIdle
  | .service, .between => .serviceIdle
  | _, _ => .evacWait

/-- The entry to that state. -/
def enterAtEnd : Purpose → Position → State → State
  | .evacuation, .atLanding => enterLanded
  | .service, .atLanding => enterServiceIdle
  | .service, .between => enterServiceIdle
  | _, _ => enterEvacWait

theorem enterAtEnd_entered {s : State} (hlanded : s.seq.state ≠ .landed) (hidle : s.seq.state ≠ .serviceIdle)
    (hwait : s.seq.state ≠ .evacWait) : ∀ (purpose : Purpose) (p : Position),
    enterAtEnd purpose p s = entered (endState purpose p) s
  | .evacuation, .atLanding => enterLanded_entered hlanded
  | .service, .atLanding => enterServiceIdle_entered hidle
  | .service, .between => enterServiceIdle_entered hidle
  | .evacuation, .between => enterEvacWait_entered hwait
  | .evacuation, .lost => enterEvacWait_entered hwait
  | .service, .lost => enterEvacWait_entered hwait

/-- The run's record ENDING in the state entered, with this shed hold and this contention unit. -/
def runEnded (st : SeqState) (hold : ShedHold) (c : ContentionUnit) (x : Trip) (s : State) : State :=
  { s with
    seq := { s.seq with
      state := st, shdn := false, trip := some { x with phase := .ending }, shedHold := hold
      dwellTimer := (entered st s).seq.dwellTimer, idleTimer := (entered st s).seq.idleTimer }
    con := c
    link := { s.link with attention := true } }

/-- The RELEASE of a run ended (R141). -/
def tripEndRelease (x : Trip) (s : State) : Release :=
  { reason := .tripEnd, tripId := x.id, draw := ((conf s).stby : Int)
    stamp := if (conf s).stby = 0 then 0 else s.seq.stamp }

/-- A contention unit after the RELEASE of an ended run: PRESENCE is due, and an attempt other than a waiting CLAIM stands. -/
def EndPosted (r : Release) (c d : ContentionUnit) : Prop :=
  ReleaseIn r c d ∧ d.presenceDue = true ∧ (c.attempt.isWaiting .claim = false → d.attempt = c.attempt)

theorem ReleaseIn.marked {r : Release} {c d : ContentionUnit} (h : ReleaseIn r c d)
    (hd : c.attempt.isWaiting .claim = false → d.attempt = c.attempt) (remarked : Bool) :
    EndPosted r c { d with presenceDue := true, remarked := remarked } := by
  refine ⟨?_, rfl, hd⟩
  rw [ReleaseIn] at h ⊢
  rw [h]

section
variable {s : State} {x : Trip}

theorem unarmed_of_running (hx : s.seq.trip = some x) (hp : x.phase = .running) (y : Trip) (hy : s.seq.trip = some y) :
    y.phase ≠ .armed := by
  obtain rfl : x = y := Option.some.inj (hx.symm.trans hy)
  rw [hp]
  exact TripPhase.noConfusion

theorem endRun_eq (hx : s.seq.trip = some x) (hp : x.phase = .running)
    (hs : s.seq.state = .evacRun ∨ s.seq.state = .serviceRun) (p : Position) :
    ∃ c, endRun x p s = runEnded (endState x.purpose p) s.seq.shedHold c x s ∧
      EndPosted (tripEndRelease x s) s.con c := by
  obtain ⟨c, hpost, hrelease, hattempt⟩ := postRelease_unarmed (unarmed_of_running hx hp) (tripEndRelease x s)
  have hposted : endRun x p s = enterAtEnd x.purpose p (setEnding x (postRelease (tripEndRelease x s) s)) := by
    unfold endRun
    cases x.purpose <;> cases p <;> rfl
  obtain ⟨hlanded, hidle, hwait⟩ : s.seq.state ≠ .landed ∧ s.seq.state ≠ .serviceIdle ∧ s.seq.state ≠ .evacWait := by
    rcases hs with hs | hs <;> simp [hs]
  refine ⟨_, ?_, hrelease.marked hattempt (c.remarked || c.attempt.serves .presence)⟩
  rw [hposted, hpost]
  exact enterAtEnd_entered (s := setEnding x { s with con := c }) hlanded hidle hwait x.purpose p

theorem endShedRun_eq (hx : s.seq.trip = some x) (hp : x.phase = .running) (hs : s.seq.state = .shedPending)
    (p : Position) :
    ∃ c, endShedRun x p s = runEnded (if p = .atLanding then .parked else .evacWait) (.timing s.now) c x s ∧
      EndPosted (shedRelease x.id) s.con c := by
  obtain ⟨c, hpost, hrelease, hattempt⟩ := postRelease_unarmed (unarmed_of_running hx hp) (shedRelease x.id)
  have hdriving : s.seq.state.driving = true := by rw [hs]; rfl
  have hshed : postShed x.id s = { s with
      seq := { s.seq with shedHold := .timing s.now }
      con := { c with presenceDue := true, remarked := c.remarked || c.attempt.serves .presence } } := by
    rw [postShed, ← shedRelease, hpost]
    exact markPresence_driving hdriving
  have hne {st : SeqState} (h : st ≠ .shedPending) : s.seq.state ≠ st := by
    rw [hs]
    exact h.symm
  have hwaits : endShedRun x p s = (if p = .atLanding then enterParked else goTo .evacWait) (setEnding x (postShed x.id s)) := by
    cases p <;> rfl
  rw [hwaits, hshed]
  split
  · refine ⟨_, ?_, hrelease.marked hattempt
      ((c.remarked || c.attempt.serves .presence) || c.attempt.serves .presence)⟩
    exact enterParked_eq (hne SeqState.noConfusion)
  · refine ⟨_, ?_, hrelease.marked hattempt (c.remarked || c.attempt.serves .presence)⟩
    exact goTo_other (hne SeqState.noConfusion)

theorem endRunInFallback_eq (hx : s.seq.trip = some x) (p : Position) :
    endRunInFallback p s = { s with
      seq := { s.seq with
        trip := none, agingTimer := .stopped, runTimer := .stopped, runp := false, spd := .p25
        commitment := ((conf s).stby : Int), landedMark := p == .atLanding }
      adm := { s.adm with patience := .stopped, ownDemand := none }
      link := { s.link with attention := true } } := by
  rw [endRunInFallback, endFallbackRun_eq hx]

end

/-! ### TRIP-END accepted, by state, and O35 -/

section
variable {s : State} {x : Trip} {tripId position landing : Byte} {p : Position}

theorem exec_tripEnd_accepted (ht : Taking s) (hx : s.seq.trip = some x) (hp : x.phase = .running)
    (hn : namesTrip tripId x.id = true) (hs : s.seq.state.runs = true) (hposition : positionOf position = some p) :
    exec (.tripEnd tripId position landing 0) s = .next
      (respond (.accepted (stateData (takeTripEnd x p landing (requestTaken s))))
        (takeTripEnd x p landing (requestTaken s))) := by
  rw [exec_tripEnd ht, judgeTripEnd_fields (s := requestTaken s) hx hp hn hs, tripEndJudged, hposition]
  rfl

theorem takeTripEnd_run (hs : s.seq.state = .evacRun ∨ s.seq.state = .serviceRun) :
    takeTripEnd x p landing s = endRun x p (stopAtEnd p landing s) := by
  rcases hs with hs | hs <;> simp [takeTripEnd, hs]

theorem takeTripEnd_shed (hs : s.seq.state = .shedPending) :
    takeTripEnd x p landing s = endShedRun x p (stopAtEnd p landing s) := by
  simp [takeTripEnd, hs]

theorem takeTripEnd_fallback (hs : s.seq.state = .fallback) :
    takeTripEnd x p landing s = endRunInFallback p (stopAtEnd p landing s) := by
  simp [takeTripEnd, hs]

/-- The state that an accepted TRIP-END outside FALLBACK leaves. -/
def tripEndAnswered (st : SeqState) (hold : ShedHold) (c : ContentionUnit) (x : Trip) (p : Position) (landing : Byte)
    (s : State) : State :=
  respond (.accepted [octet st.code])
    (runEnded st hold c x (runStopped p landing s.con.presenceDue s.con.remarked (requestTaken s)))

theorem takeTripEnd_answered (hx : s.seq.trip = some x) (hp : x.phase = .running)
    (hs : s.seq.state = .evacRun ∨ s.seq.state = .serviceRun ∨ s.seq.state = .shedPending) :
    ∃ st hold r c, respond (.accepted (stateData (takeTripEnd x p landing (requestTaken s))))
        (takeTripEnd x p landing (requestTaken s)) = tripEndAnswered st hold c x p landing s ∧
      EndPosted r s.con c ∧
      (s.seq.state = .evacRun ∨ s.seq.state = .serviceRun →
        st = endState x.purpose p ∧ hold = s.seq.shedHold ∧ r = tripEndRelease x s) ∧
      (s.seq.state = .shedPending →
        st = (if p = .atLanding then .parked else .evacWait) ∧ hold = .timing s.now ∧ r = shedRelease x.id) := by
  obtain ⟨due, remarked, hstop, -⟩ := stopAtEnd_eq p landing (requestTaken s)
  by_cases hshed : s.seq.state = .shedPending
  · obtain ⟨c, he, hc⟩ := endShedRun_eq (s := runStopped p landing due remarked (requestTaken s)) hx hp hshed p
    refine ⟨_, _, _, c, ?_, hc, fun h => ?_, fun _ => ⟨rfl, rfl, rfl⟩⟩
    · rw [takeTripEnd_shed (s := requestTaken s) hshed, hstop, he]
      rfl
    · rcases h with h | h <;> exact absurd (h.symm.trans hshed) SeqState.noConfusion
  · have hrun : s.seq.state = .evacRun ∨ s.seq.state = .serviceRun := by tauto
    obtain ⟨c, he, hc⟩ := endRun_eq (s := runStopped p landing due remarked (requestTaken s)) hx hp hrun p
    refine ⟨_, _, _, c, ?_, hc, fun _ => ⟨rfl, rfl, rfl⟩, fun h => absurd h hshed⟩
    rw [takeTripEnd_run (s := requestTaken s) hrun, hstop, he]
    rfl

end

/-- Settles O35. -/
theorem tripEndTaken : Obligations.TripEndTaken := by
  unfold Obligations.TripEndTaken
  refine ⟨fun s tripId position landing x p ht hx hp hn hposition hs => ?_,
    fun s tripId position landing reserved ht => ?_⟩
  · have hruns : s.seq.state.runs = true := by rcases hs with h | h | h | h <;> rw [h] <;> rfl
    have hexec := exec_tripEnd_accepted (landing := landing) ht hx hp hn hruns hposition
    have hlockout : (p = .atLanding → lockoutAfter p s.seq.lockout = false) ∧
        (p = .lost → lockoutAfter p s.seq.lockout = true) ∧
        (p = .between → lockoutAfter p s.seq.lockout = s.seq.lockout) := by
      cases p <;> simp [lockoutAfter]
    by_cases hfallback : s.seq.state = .fallback
    · obtain ⟨due, remarked, hstop, hsilent⟩ := stopAtEnd_eq p landing (requestTaken s)
      obtain ⟨rfl, rfl⟩ := hsilent (by simp [requestTaken, hfallback, SeqState.driving])
      rw [takeTripEnd_fallback (s := requestTaken s) hfallback, hstop,
        endRunInFallback_eq (s := runStopped p landing _ _ (requestTaken s)) hx p] at hexec
      refine ⟨_, hexec, rfl, rfl, rfl, rfl, hlockout.1, hlockout.2.1, hlockout.2.2, respond_acceptedWith rfl _, ⟨rfl, rfl⟩,
        ⟨rfl, rfl, rfl, rfl⟩, rfl, fun h => absurd hfallback h, fun h => ?_, fun h => ?_, fun _ => ⟨rfl, rfl, rfl⟩⟩
      · rcases h with h | h <;> exact absurd (h.symm.trans hfallback) SeqState.noConfusion
      · exact absurd (h.symm.trans hfallback) SeqState.noConfusion
    · obtain ⟨st, hold, r, c, he, ⟨hrelease, hdue, hattempt⟩, hrun, hshed⟩ :=
        takeTripEnd_answered (p := p) (landing := landing) hx hp (by tauto)
      rw [he] at hexec
      have hslot : c.releaseSlot = some r := by rw [hrelease]
      refine ⟨_, hexec, rfl, rfl, rfl, rfl, hlockout.1, hlockout.2.1, hlockout.2.2, respond_acceptedWith rfl _, ⟨rfl, rfl⟩,
        ⟨rfl, rfl, rfl, rfl⟩, rfl, fun _ => ⟨rfl, hdue, rfl, rfl, ?_, hattempt, rfl⟩, fun h => ?_, fun h => ?_,
        fun h => absurd h hfallback⟩
      · rw [ReleaseIn, ← hslot] at hrelease
        exact hrelease
      · obtain ⟨rfl, rfl, rfl⟩ := hrun h
        exact ⟨rfl, hslot, rfl, fun hst => if_pos hst, fun hst => if_pos hst⟩
      · obtain ⟨rfl, rfl, rfl⟩ := hshed h
        refine ⟨rfl, rfl, hslot, rfl, ?_, ?_⟩
        · cases p <;> rfl
        · cases p <;> rfl
  · refine ⟨_, exec_tripEnd ht tripId position landing reserved, ?_, fun hi => ?_, fun hi h => ?_,
      fun x hx hp hn hs => ⟨fun hposition => ?_, fun hposition hreserved => ?_⟩⟩
    · exact respond_linkElse ((requestTaken_linkElse s).trans (judgeTripEnd_linkElse ..)) _
    · rw [judgeTripEnd_isolated (s := requestTaken s) hi]
      exact requestTaken_refused ..
    · rw [judgeTripEnd_noTrip (s := requestTaken s) hi h]
      exact requestTaken_refused ..
    · rw [judgeTripEnd_fields (s := requestTaken s) hx hp hn hs, tripEndJudged, hposition]
      exact requestTaken_refused ..
    · obtain ⟨p, hposition⟩ := Option.ne_none_iff_exists'.mp hposition
      rw [judgeTripEnd_fields (s := requestTaken s) hx hp hn hs, tripEndJudged, hposition]
      simp only [if_pos hreserved]
      exact requestTaken_refused ..

end Sys2Proof.Machine
end

section
/-!
A message with the own number that another station completed (R95, R130, R164): DUPLICATE raised, ISOLATED entered from a session state,
and from these O13.
-/

namespace Sys2Proof.Machine

/-! ### The rest of the instant with no record in hand (R100) -/

section
variable {m : Message} {reference : Nat} {s : State}

theorem noteStart_tripless (h : s.seq.trip = none) : (noteStart m.body s).seq = s.seq := by
  obtain ⟨hlost, -⟩ := noteStart_lost m.body s
  rw [hlost.frame, hlost.trip_none h, ← h]

/-- With no record there is nothing to evaluate, to abandon or to arm. -/
theorem instantEnded_tripless (h : s.seq.trip = none) :
    (instantEnded m reference s).seq = s.seq ∧ (instantEnded m reference s).adm = s.adm := by
  have hstart := noteStart_tripless (m := m) h
  have hoffered : (offerObservation (observationOf m false) (noteStart m.body s)).seq.trip = none := by
    simp [hstart, h]
  obtain ⟨hseq, hadm⟩ := referencePoint_tripless (instant := reference) hoffered
  exact ⟨hseq.trans (by simp [hstart]), hadm.trans (by simp)⟩

/-- The reply that waits or is being sent stays so (R168). -/
theorem instantEnded_reply (h : s.seq.trip = none) : (instantEnded m reference s).link.reply = s.link.reply := by
  have hstart : (noteStart m.body s).link.reply = s.link.reply := by rw [(noteStart_lost m.body s).1.frame]
  have hoffer (o : Observation) (v : State) : (offerObservation o v).link.reply = v.link.reply := by
    rcases offerObservation_cases o v with he | ⟨-, he⟩ | he <;> rw [he] <;> rfl
  have hoffered : (offerObservation (observationOf m false) (noteStart m.body s)).seq.trip = none := by
    simp [noteStart_tripless h, h]
  obtain ⟨-, -, hlink⟩ := referencePoint_chooses reference (offerObservation (observationOf m false) (noteStart m.body s))
  rw [evaluate_none (atReference reference _) hoffered] at hlink
  rw [instantEnded, hlink]
  exact (hoffer _ _).trans hstart

/-- Outside the driving states nothing is chosen (R107, R116). -/
theorem instantEnded_outbound (h : s.seq.trip = none) (hd : s.seq.state.driving = false) (hs : OutboundClear s) :
    OutboundClear (instantEnded m reference s) := by
  obtain ⟨hattempt, hrelease, hclaim, hdue, hline⟩ := hs
  have hw := instantEnded_tripWritten (m := m) (reference := reference) (s := s) (by simp [h])
  have hstart := noteStart_tripless (m := m) h
  refine ⟨?_, hw.releaseSlot.trans hrelease, hw.claimSlot.trans hclaim, hw.presenceDue.trans hdue,
    by simpa [instantEnded] using hline⟩
  rw [instantEnded, referencePoint_attempt (.inr (.inr ⟨by simpa [hstart] using hd, by simpa [hstart] using h⟩)),
    noteStart_idle hattempt]
  simpa using hattempt

end

/-! ### The duplicate taken (R95, R130) -/

theorem execEndOfActivity_duplicate {s : State} {changes : List LineChange} {reference : Nat} {u : LineUnit} {m : Message}
    (hactive : s.line.active = true) (hconfigured : configured s = true) (hidle : s.line.transmitter = none)
    (hend : s.line.recognised changes = some (reference, u)) (hok : judgeActivity u = .ok m)
    (hown : m.station = s.station) :
    execEndOfActivity changes s = .next (instantEnded m reference (takeDuplicate (activityEnded reference u s))) := by
  have hquiet : (activityEnded reference u s).line.transmitter = none := by
    obtain ⟨-, htransmitter, -⟩ := LineUnit.recognised_keeps hend
    exact htransmitter.trans hidle
  have hconf : configured (activityEnded reference u s) = true := hconfigured
  have hdeliver : settleActivity u (activityEnded reference u s) = deliverMessage m (activityEnded reference u s) := by
    simp only [settleActivity, hquiet, judgeAndDeliver, hconf, hok]
    rfl
  have hstation : m.station = (activityEnded reference u s).station := hown
  rw [execEndOfActivity, if_pos hactive, hend]
  show Host.Outcome.next (referencePoint reference (settleActivity u (activityEnded reference u s))) = _
  rw [hdeliver, deliverMessage, if_pos hstation]
  rfl

/-- DUPLICATE raised and the duplicate flag set (R43, R95). -/
def duplicateNoted (attention : Bool) (s : State) : State :=
  { s with
    seq := { s.seq with duplicate := true }
    adm := { s.adm with conditions := { s.adm.conditions with duplicate := true } }
    link := { s.link with attention := attention } }

theorem takeDuplicate_eq (s : State) : ∃ attention, takeDuplicate s =
    if s.seq.state.session = true ∧ s.seq.state ≠ .isolated then enterIsolated (duplicateNoted attention s)
    else duplicateNoted attention s := by
  obtain ⟨attention, hraise, -⟩ := raise_eq .duplicate s
  refine ⟨attention, ?_⟩
  rw [takeDuplicate, hraise]
  simp only [Bool.and_eq_true, bne_iff_ne]
  rfl

/-- Whatever the state, the message stays out of the roster and is offered to the filters (R95, R177). -/
theorem duplicateEnded_frame (m : Message) (reference : Nat) (u : LineUnit) (s : State) :
    (instantEnded m reference (takeDuplicate (activityEnded reference u s))).roster = s.roster ∧
      (instantEnded m reference (takeDuplicate (activityEnded reference u s))).config = s.config ∧
      (instantEnded m reference (takeDuplicate (activityEnded reference u s))).pins = s.pins ∧
      Observed s (instantEnded m reference (takeDuplicate (activityEnded reference u s))) m false := by
  refine ⟨by simp [instantEnded, activityEnded], by simp [instantEnded, activityEnded],
    by simp [instantEnded, activityEnded], ?_⟩
  refine (instantEnded_observed m reference _).kept ?_ ⟨rfl, rfl, rfl, rfl⟩ id
  simp [LinkElse, activityEnded]

/-- Settles O13: a car in a session departs to ISOLATED, one in DORMANT or ISOLATED takes the flag alone, and with no record left the
rest of the instant changes neither. -/
theorem duplicateIsolates : Obligations.DuplicateIsolates := by
  unfold Obligations.DuplicateIsolates
  refine ⟨fun s changes reference u m hactive hsession hisolated hidle hend hok hown => ?_,
    fun s changes reference u m hactive hs hnone hidle hend hok hown => ?_⟩
  · have hconfigured : configured s = true := by
      rw [configured, bne_iff_ne]
      exact (SeqState.session_ne hsession).1
    have hexec := execEndOfActivity_duplicate hactive hconfigured hidle hend hok hown
    obtain ⟨attention, htaken⟩ := takeDuplicate_eq (activityEnded reference u s)
    rw [if_pos ⟨hsession, hisolated⟩, enterIsolated_eq (by exact hisolated)] at htaken
    obtain ⟨hroster, hconfig, hpins, hobserved⟩ := duplicateEnded_frame m reference u s
    rw [htaken] at hexec hroster hconfig hpins hobserved
    generalize hw : settleReply (isolatedFrom (duplicateNoted attention (activityEnded reference u s))) = w at *
    have hwseq : w.seq = (isolatedFrom (duplicateNoted attention (activityEnded reference u s))).seq := by
      rw [← hw]
      simp
    have hwadm : w.adm = (isolatedFrom (duplicateNoted attention (activityEnded reference u s))).adm := by
      rw [← hw]
      simp
    have hnone : w.seq.trip = none := by
      rw [hwseq]
      rfl
    have hdebts : DebtsSettled s w := by
      rw [← hw]
      exact settleReply_debts rfl rfl rfl
    have hclear : OutboundClear w := by
      rw [← hw]
      simp only [OutboundClear, settleReply_keeps]
      obtain ⟨h1, h2, h3, h4, h5, -⟩ := clearOutbound_outbound (duplicateNoted attention (activityEnded reference u s))
      exact ⟨h1, h2, h3, h4, h5⟩
    obtain ⟨hseq, hadm⟩ := instantEnded_tripless (m := m) (reference := reference) hnone
    have hout := instantEnded_outbound (m := m) (reference := reference) hnone (by rw [hwseq]; rfl) hclear
    have hreply := instantEnded_reply (m := m) (reference := reference) hnone
    refine ⟨_, hexec, ?_, ?_, ?_, ?_, ?_, ?_, ?_, ?_, ?_, ?_, ?_, hout, hroster, hconfig, hpins, ?_, hobserved⟩
    case refine_1 =>
      rw [hadm, hwadm]
      rfl
    case refine_12 =>
      obtain ⟨h1, h2, h3⟩ := hdebts
      rw [DebtsSettled, hseq, hreply]
      exact ⟨h1, h2, h3⟩
    all_goals
      rw [hseq, hwseq]
      rfl
  · have hconfigured : configured s = true := by
      rw [configured, bne_iff_ne]
      rcases hs with hs | hs <;> rw [hs] <;> exact SeqState.noConfusion
    have hexec := execEndOfActivity_duplicate hactive hconfigured hidle hend hok hown
    obtain ⟨attention, htaken⟩ := takeDuplicate_eq (activityEnded reference u s)
    rw [if_neg (by rintro ⟨h, h'⟩; rcases hs with hs | hs <;> simp_all [activityEnded, SeqState.session])] at htaken
    rw [htaken] at hexec
    obtain ⟨hseq, hadm⟩ := instantEnded_tripless (m := m) (reference := reference)
      (s := duplicateNoted attention (activityEnded reference u s)) hnone
    obtain ⟨hroster, hconfig, hpins, hobserved⟩ := duplicateEnded_frame m reference u s
    rw [htaken] at hroster hconfig hpins hobserved
    exact ⟨_, hexec, hseq, hadm, hroster, instantEnded_reply hnone, hconfig, hpins, hobserved⟩

end Sys2Proof.Machine
end

section
/-!
The receiver's sampling and its changes of level as updates of the line unit (R81 to R83): one sample at a time, what sampling to an
instant comes to, the edges, and a change of the others' drive with nothing of the own on the line.
-/

namespace Sys2Proof.Machine

/-! ### Sampling, one bit at a time (R81) -/

section
variable {t : Nat} {u : LineUnit} {o : OctetInHand}

theorem LineUnit.sampleBit_none (h : u.inHand = none) : u.sampleBit t = u := by simp [LineUnit.sampleBit, h]

theorem LineUnit.sampleBit_early (h : u.inHand = some o) (ht : t ≤ midBit o.start (o.bits.length + 1)) :
    u.sampleBit t = u := by simp [LineUnit.sampleBit, h, Nat.not_lt.mpr ht]

theorem LineUnit.sampleBit_data (h : u.inHand = some o) (ht : midBit o.start (o.bits.length + 1) < t)
    (hb : o.bits.length < 8) :
    u.sampleBit t = { u with inHand := some { o with bits := o.bits ++ [u.level == .recessive] } } := by
  simp [LineUnit.sampleBit, h, ht, hb]

theorem LineUnit.sampleBit_stop (h : u.inHand = some o) (ht : midBit o.start (o.bits.length + 1) < t)
    (hb : 8 ≤ o.bits.length) : u.sampleBit t = u.closeOctet o := by
  simp [LineUnit.sampleBit, h, ht, Nat.not_lt.mpr hb]

end

/-- Sampling to an instant is nine times the sampling of one bit: no octet has more left (R80). -/
theorem LineUnit.sampleTo_iterate (t : Nat) (u : LineUnit) : u.sampleTo t = (LineUnit.sampleBit t)^[9] u := by
  rw [LineUnit.sampleTo, List.foldl_const, List.length_range]

/-- The samples that the octet in hand still waits for, its stop bit among them. -/
def LineUnit.unsampled (u : LineUnit) : Nat :=
  match u.inHand with
  | none => 0
  | some o => 8 - o.bits.length + 1

theorem LineUnit.unsampled_le (u : LineUnit) : u.unsampled ≤ 9 := by
  unfold LineUnit.unsampled
  split <;> omega

/-- A bit is sampled, the same at every later instant, or nothing is. -/
theorem LineUnit.sampleBit_cases (t : Nat) (u : LineUnit) :
    u.sampleBit t = u ∨
      ((u.sampleBit t).unsampled < u.unsampled ∧ ∀ t', t ≤ t' → u.sampleBit t' = u.sampleBit t) := by
  cases h : u.inHand with
  | none => exact .inl (LineUnit.sampleBit_none h)
  | some o =>
    by_cases ht : midBit o.start (o.bits.length + 1) < t
    · refine .inr ?_
      by_cases hb : o.bits.length < 8
      · refine ⟨?_, fun t' ht' => ?_⟩
        · rw [LineUnit.sampleBit_data h ht hb]
          simp only [LineUnit.unsampled, h, List.length_append, List.length_singleton]
          omega
        · rw [LineUnit.sampleBit_data h ht hb, LineUnit.sampleBit_data h (ht.trans_le ht') hb]
      · have hb := Nat.not_lt.mp hb
        refine ⟨?_, fun t' ht' => ?_⟩
        · rw [LineUnit.sampleBit_stop h ht hb]
          simp [LineUnit.unsampled, LineUnit.closeOctet, h]
        · rw [LineUnit.sampleBit_stop h ht hb, LineUnit.sampleBit_stop h (ht.trans_le ht') hb]
    · exact .inl (LineUnit.sampleBit_early h (Nat.not_lt.mp ht))

/-- As many samples as are left leave nothing to sample before the instant. -/
theorem LineUnit.sampleBit_iterate_fixed (t : Nat) {n : Nat} {u : LineUnit} (h : u.unsampled ≤ n) :
    ((LineUnit.sampleBit t)^[n] u).sampleBit t = (LineUnit.sampleBit t)^[n] u := by
  induction n generalizing u with
  | zero =>
    have hnone : u.inHand = none := by
      cases hu : u.inHand <;> simp [LineUnit.unsampled, hu] at h ⊢
    exact LineUnit.sampleBit_none hnone
  | succ n ih =>
    rcases u.sampleBit_cases t with hfixed | ⟨hfewer, -⟩
    · rw [Function.iterate_fixed hfixed, hfixed]
    · rw [Function.iterate_succ_apply]
      exact ih (by omega)

/-- Samples taken before an instant are among those taken before a later one. -/
theorem LineUnit.sampleBit_iterate_later {t t' : Nat} (ht : t ≤ t') (n : Nat) (u : LineUnit) :
    ∃ j, (LineUnit.sampleBit t)^[n] u = (LineUnit.sampleBit t')^[j] u := by
  induction n generalizing u with
  | zero => exact ⟨0, rfl⟩
  | succ n ih =>
    rw [Function.iterate_succ_apply]
    rcases u.sampleBit_cases t with hfixed | ⟨-, hlater⟩
    · rw [hfixed]
      exact ih u
    · obtain ⟨j, hj⟩ := ih (u.sampleBit t)
      refine ⟨j + 1, ?_⟩
      rw [hj, Function.iterate_succ_apply, hlater t' ht]

theorem LineUnit.sampleTo_fixed (t : Nat) (u : LineUnit) : (u.sampleTo t).sampleBit t = u.sampleTo t := by
  rw [LineUnit.sampleTo_iterate]
  exact LineUnit.sampleBit_iterate_fixed t u.unsampled_le

/-- While the level holds, sampling to an instant on the way changes nothing of what is sampled at the end. -/
theorem LineUnit.sampleTo_sampleTo {t t' : Nat} (ht : t ≤ t') (u : LineUnit) :
    (u.sampleTo t).sampleTo t' = u.sampleTo t' := by
  obtain ⟨j, hj⟩ := LineUnit.sampleBit_iterate_later ht 9 u
  rw [LineUnit.sampleTo_iterate t u, hj, LineUnit.sampleTo_iterate t', ← Function.iterate_add_apply, add_comm,
    Function.iterate_add_apply, ← LineUnit.sampleTo_iterate t' u]
  exact Function.iterate_fixed (u.sampleTo_fixed t') j

/-- Where the sample of one bit leaves nothing more to sample, it is all. -/
theorem LineUnit.sampleTo_one {t : Nat} {u : LineUnit} (h : (u.sampleBit t).sampleBit t = u.sampleBit t) :
    u.sampleTo t = u.sampleBit t := by
  rw [LineUnit.sampleTo_iterate, Function.iterate_succ_apply, Function.iterate_fixed h]

/-- The octet in hand complete: it counts, and a dominant stop bit marks FRAME (R81). -/
def LineUnit.OctetCounted (u : LineUnit) (o : OctetInHand) (v : LineUnit) : Prop :=
  ∃ octets, v = { u with
    inHand := none, inTimeUntil := o.start + 110, octets := octets, octetCount := u.octetCount + 1
    frameMark := u.frameMark || u.level == .dominant }

/-- As many samples as an octet in hand has left complete it, where all their middles have passed. -/
theorem LineUnit.sampleBit_iterate_closes {t n : Nat} {u : LineUnit} {o : OctetInHand} (h : u.inHand = some o)
    (hb : o.bits.length ≤ 8) (ht : o.start + 95 < t) (hn : 8 - o.bits.length ≤ n) :
    u.OctetCounted o ((LineUnit.sampleBit t)^[n + 1] u) := by
  have hmid : midBit o.start (o.bits.length + 1) < t := by
    simp only [midBit, Config.bitTime]
    omega
  rw [Function.iterate_succ_apply]
  rcases hb.eq_or_lt with hfull | hmore
  · have hnone : (u.closeOctet o).inHand = none := rfl
    rw [LineUnit.sampleBit_stop h hmid hfull.ge, Function.iterate_fixed (LineUnit.sampleBit_none hnone)]
    exact ⟨_, rfl⟩
  · obtain ⟨n, rfl⟩ : ∃ k, n = k + 1 := ⟨n - 1, by omega⟩
    rw [LineUnit.sampleBit_data h hmid hmore]
    have hlength : (o.bits ++ [u.level == .recessive]).length = o.bits.length + 1 := by simp
    have hrest := LineUnit.sampleBit_iterate_closes (n := n) (t := t)
      (u := { u with inHand := some { o with bits := o.bits ++ [u.level == .recessive] } })
      (o := { o with bits := o.bits ++ [u.level == .recessive] }) rfl (by rw [hlength]; omega) ht (by rw [hlength]; omega)
    exact hrest

/-- Long enough after its start an octet in hand is complete, whatever was sampled of it (R81). -/
theorem LineUnit.sampleTo_closes {t : Nat} {u : LineUnit} {o : OctetInHand} (h : u.inHand = some o)
    (hb : o.bits.length ≤ 8) (ht : o.start + 95 < t) : u.OctetCounted o (u.sampleTo t) := by
  rw [LineUnit.sampleTo_iterate]
  exact LineUnit.sampleBit_iterate_closes h hb ht (by omega)

end Sys2Proof.Machine
end

section
/-!
A change of the others' drive with nothing of the own on the line (R79, R81 to R83): what it does to the line unit, and the edges that
begin and join an activity.
-/

namespace Sys2Proof.Machine

/-! ### What is told of the others is not sampled (log 5) -/

/-- A line unit with what the others leave on the line, and how far it is read, told anew. -/
def LineUnit.told (l : Level) (r : Nat) (u : LineUnit) : LineUnit := { u with others := l, readTo := r }

section
variable (t r : Nat) (l : Level) (u : LineUnit)

@[simp] theorem LineUnit.told_inHand : (u.told l r).inHand = u.inHand := rfl
@[simp] theorem LineUnit.told_level : (u.told l r).level = u.level := rfl
@[simp] theorem LineUnit.told_others : (u.told l r).others = l := rfl
@[simp] theorem LineUnit.told_readTo : (u.told l r).readTo = r := rfl
@[simp] theorem LineUnit.told_active : (u.told l r).active = u.active := rfl
@[simp] theorem LineUnit.told_changedAt : (u.told l r).changedAt = u.changedAt := rfl
@[simp] theorem LineUnit.told_transmitter : (u.told l r).transmitter = u.transmitter := rfl

theorem LineUnit.sampleBit_told : (u.told l r).sampleBit t = (u.sampleBit t).told l r := by
  cases h : u.inHand with
  | none => rw [LineUnit.sampleBit_none h, LineUnit.sampleBit_none (u := u.told l r) h]
  | some o =>
    have hsome : (u.told l r).inHand = some o := h
    by_cases ht : midBit o.start (o.bits.length + 1) < t
    · by_cases hb : o.bits.length < 8
      · rw [LineUnit.sampleBit_data h ht hb, LineUnit.sampleBit_data hsome ht hb]
        rfl
      · rw [LineUnit.sampleBit_stop h ht (Nat.not_lt.mp hb), LineUnit.sampleBit_stop hsome ht (Nat.not_lt.mp hb)]
        rfl
    · rw [LineUnit.sampleBit_early h (Nat.not_lt.mp ht), LineUnit.sampleBit_early hsome (Nat.not_lt.mp ht)]

theorem LineUnit.sampleTo_told : (u.told l r).sampleTo t = (u.sampleTo t).told l r := by
  have hsemi : Function.Semiconj (LineUnit.told l r) (LineUnit.sampleBit t) (LineUnit.sampleBit t) :=
    fun u => (u.sampleBit_told t r l).symm
  rw [LineUnit.sampleTo_iterate, LineUnit.sampleTo_iterate]
  exact ((hsemi.iterate_right 9) u).symm

theorem LineUnit.dominantEdge_told : (u.told l r).dominantEdge t = (u.dominantEdge t).told l r := by
  unfold LineUnit.dominantEdge
  dsimp only [LineUnit.told]
  split_ifs
  · cases u.inHand <;> rfl
  · rfl
  · rfl

theorem LineUnit.setLevel_told (k : Level) : (u.told l r).setLevel t k = (u.setLevel t k).told l r := by
  unfold LineUnit.setLevel
  by_cases h : k = u.level
  · simp [h]
  · cases k <;> simp only [LineUnit.told_level, h, if_false, LineUnit.sampleTo_told, LineUnit.dominantEdge_told]
    rfl

theorem LineUnit.settle_told :
    (u.told l r).settle t = (u.setLevel t ((u.told l r).lineAt t)).told l (max r t) := by
  rw [LineUnit.settle, LineUnit.setLevel_told]
  rfl

end

/-! ### A change with nothing of the own on the line (R79) -/

/-- The line takes the level that the others leave, at the instant they leave it. -/
theorem LineUnit.othersChange_idle {u : LineUnit} {c : LineChange} (h : u.transmitter = none)
    (hread : u.readTo ≤ u.instant c) :
    u.othersChange c = (u.setLevel (u.instant c) c.level).told c.level (u.instant c) := by
  have hmax : max (u.instant c) u.readTo = u.instant c := max_eq_left hread
  have hlate : max (max u.readTo (u.instant c - 1)) (u.instant c) = u.instant c := by omega
  have hsettle : u.othersChange c = (u.told c.level (max u.readTo (u.instant c - 1))).settle (u.instant c) := by
    rw [LineUnit.othersChange, hmax, LineUnit.driveTo_idle h]
    rfl
  have hidle : (u.told c.level (max u.readTo (u.instant c - 1))).transmitter = none := h
  rw [hsettle, LineUnit.settle_told, LineUnit.lineAt_idle hidle, LineUnit.told_others, hlate]

theorem LineUnit.setLevel_rises {u : LineUnit} (h : u.level = .recessive) (t : Nat) :
    u.setLevel t .dominant = (u.sampleTo t).dominantEdge t := by simp [LineUnit.setLevel, h]

theorem LineUnit.setLevel_falls {u : LineUnit} (h : u.level = .dominant) (t : Nat) :
    u.setLevel t .recessive = (u.sampleTo t).recessiveEdge t := by simp [LineUnit.setLevel, h]

/-- An edge that falls now on a quiet line begins an activity (R81). -/
theorem LineUnit.edgeNow_begins {u : LineUnit} {now : Nat} (hlevel : u.level = .recessive) (hactive : u.active = false)
    (hgap : u.awaitingGap = false) (hidle : u.transmitter = none) (hread : u.readTo ≤ now) :
    u.edgeNow now = { u with
      others := .dominant, level := .dominant, readTo := now, changedAt := now, active := true
      startedAt := now, inHand := some { start := now, bits := [] }, inTimeUntil := 0, octets := []
      octetCount := 0, frameMark := false, longMark := false, longTimer := .running now } := by
  have hchange := LineUnit.othersChange_idle (u := { u with startedAt := now }) (c := { after := 0, level := .dominant })
    hidle hread
  have hbegins := LineUnit.setLevel_begins (u := { u with startedAt := now }) hlevel hactive hgap now
  rw [LineUnit.edgeNow, hchange]
  exact congrArg (LineUnit.told .dominant now) hbegins

end Sys2Proof.Machine
end

section
/-!
The line as it is read with nothing of the own on it (R79, R81 to R83, R98): O49, a lemma for each command and for each state of the
receiver in which it comes.
-/

namespace Sys2Proof.Machine

/-! ### A change of the others' drive (R79, R82, R83) -/

section
variable {u : LineUnit} {c : LineChange}

theorem LineUnit.othersChange_rises (hidle : u.transmitter = none) (hread : u.readTo ≤ u.instant c)
    (hlevel : u.level = .recessive) (hc : c.level = .dominant) :
    u.othersChange c = ((u.sampleTo (u.instant c)).dominantEdge (u.instant c)).told .dominant (u.instant c) := by
  rw [LineUnit.othersChange_idle hidle hread, hc, LineUnit.setLevel_rises hlevel]

theorem LineUnit.othersChange_falls (hidle : u.transmitter = none) (hread : u.readTo ≤ u.instant c)
    (hlevel : u.level = .dominant) (hc : c.level = .recessive) :
    u.othersChange c = ((u.sampleTo (u.instant c)).recessiveEdge (u.instant c)).told .recessive (u.instant c) := by
  rw [LineUnit.othersChange_idle hidle hread, hc, LineUnit.setLevel_falls hlevel]

theorem LineUnit.othersChange_same (hidle : u.transmitter = none) (hread : u.readTo ≤ u.instant c)
    (hc : c.level = u.level) : u.othersChange c = u.told c.level (u.instant c) := by
  rw [LineUnit.othersChange_idle hidle hread, hc, LineUnit.setLevel_same]

end

/-! ### Before the first base gap (R98) -/

theorem LineUnit.coming_nil {u : LineUnit} (h : u.coming = []) : { u with coming := [] } = u := by
  cases u
  simp only at h
  rw [h]

/-- With nothing told there is nothing to follow. -/
theorem LineUnit.follow_none {u : LineUnit} (h : u.coming = []) (stop : LineUnit → LineChange → Bool) :
    u.follow stop u.coming = u := by
  rw [h, LineUnit.follow_nil, LineUnit.coming_nil h]

theorem LineUnit.driveTo_told {u : LineUnit} (h : u.transmitter = none) (t : Nat) :
    u.driveTo t = u.told u.others (max u.readTo t) := by
  rw [LineUnit.driveTo_idle h]
  rfl

section
variable {s : State}

theorem execFirstBaseGap_found (hreset : inReset s = false) (hgap : s.line.awaitingGap = true)
    (hlevel : (s.line.follow LineUnit.gapBefore s.line.coming).level = .recessive) :
    execFirstBaseGap s = .next (openReceiver (s.line.follow LineUnit.gapBefore s.line.coming) s) := by
  simp only [execFirstBaseGap]
  exact if_pos ⟨hreset, hgap, hlevel⟩

theorem execFirstBaseGap_none
    (h : inReset s = true ∨ (s.line.follow LineUnit.gapBefore s.line.coming).level = .dominant) :
    execFirstBaseGap s = .next s := by
  simp only [execFirstBaseGap]
  refine if_neg ?_
  rintro ⟨hreset, -, hlevel⟩
  rcases h with h | h
  · exact absurd (hreset.symm.trans h) Bool.noConfusion
  · exact absurd (hlevel.symm.trans h) Level.noConfusion

/-- On a dominant line no base gap has passed: the change told is followed (R82, R98). -/
theorem LineUnit.follow_one {u : LineUnit} {c : LineChange} (hidle : u.transmitter = none) (hlevel : u.level = .dominant) :
    u.follow LineUnit.gapBefore [c] = { u.othersChange c with coming := [] } := by
  rw [LineUnit.follow_cons, LineUnit.gapBefore_idle hidle, LineUnit.gapPassed_dominant hlevel, if_neg Bool.noConfusion,
    LineUnit.follow_nil]

end

/-! ### The long-dominant timer (R83) -/

section
variable {s : State} {since : Nat}

/-- The timer reaches its time within or outside an activity (R83), before the error is recorded. -/
def longDominantReached (since : Nat) (s : State) : State :=
  { s with
    now := max s.now (since + 160)
    line := { s.line with
      readTo := max s.line.readTo (since + 160), longMark := s.line.longMark || s.line.active, longTimer := .stopped } }

theorem execLongDominantExpiry_running (hreset : inReset s = false) (htimer : s.line.longTimer = .running since)
    (hidle : s.line.transmitter = none) (hcoming : s.line.coming = []) :
    execLongDominantExpiry s = .next (lineError .longDominant (longDominantReached since s)) := by
  have hread : (s.line.told s.line.others (max s.line.readTo (since + Config.longDominant))).longTimer = .running since := htimer
  simp only [execLongDominantExpiry, hreset, LineUnit.follow_none hcoming, htimer, LineUnit.driveTo_told hidle, hread,
    if_true, Bool.false_eq_true, if_false]
  rw [setLine_within (by rfl)]
  rfl

theorem execLongDominantExpiry_stopped (htimer : s.line.longTimer = .stopped) (hcoming : s.line.coming = []) :
    execLongDominantExpiry s = .next s := by
  simp only [execLongDominantExpiry, LineUnit.follow_none hcoming, htimer, ite_self]

theorem lineError_unconfigured (k : LineError) (h : configured s = false) : lineError k s = s := by
  simp [lineError, h]

end

/-! ### An edge in an activity (R81, R82) -/

section
variable {s : State} {o : OctetInHand}

theorem LineUnit.readOn_told {u : LineUnit} (hidle : u.transmitter = none) (hcoming : u.coming = []) (t : Nat) :
    u.readOn t = u.told u.others (max u.readTo (t - 1)) := LineUnit.readOn_idle hidle hcoming t

/-- An edge that falls now within an activity is read at its own instant (log 5). -/
theorem LineUnit.edgeWithin_rises {u : LineUnit} {now : Nat} (hidle : u.transmitter = none) (hlevel : u.level = .recessive)
    (hread : u.readTo ≤ now) (hstart : u.startedAt ≤ now) :
    u.edgeWithin now = ((u.sampleTo now).dominantEdge now).told .dominant now := by
  have hinstant : u.instant { after := now - u.startedAt, level := .dominant } = now := by
    simp only [LineUnit.instant]
    omega
  have hrises := LineUnit.othersChange_rises (c := { after := now - u.startedAt, level := .dominant }) hidle
    (by rw [hinstant]; exact hread) hlevel rfl
  rwa [hinstant] at hrises

/-- After the stop bit of the octet in hand an edge later than the bit time that follows begins a late octet and marks FRAME
(R81). -/
theorem LineUnit.edgeWithin_late {u : LineUnit} {now : Nat} (hactive : u.active = true) (hidle : u.transmitter = none)
    (hlevel : u.level = .recessive) (hread : u.readTo ≤ now) (hstart : u.startedAt ≤ now) (ho : u.inHand = some o)
    (hbits : o.bits.length ≤ 8) (hlate : o.start + 110 ≤ now) :
    ∃ octets, u.edgeWithin now = { u with
      others := .dominant, level := .dominant, readTo := now, changedAt := now, longTimer := .running now
      inHand := some { start := now, bits := [] }, inTimeUntil := o.start + 110, octetCount := u.octetCount + 1
      octets := octets, frameMark := true } := by
  obtain ⟨octets, hcounted⟩ := LineUnit.sampleTo_closes ho hbits (t := now) (by omega)
  refine ⟨octets, ?_⟩
  rw [LineUnit.edgeWithin_rises hidle hlevel hread hstart, hcounted]
  simp [LineUnit.dominantEdge, hactive, hlate, LineUnit.told]

theorem execLineActivityStart_within (hreset : inReset s = false) (hactive : s.line.active = true)
    (hgap : (s.line.readOn s.now).gapPassed s.now = false) (hkept : ((s.line.readOn s.now).edgeWithin s.now).active = true) :
    execLineActivityStart s = .next { s with line := (s.line.readOn s.now).edgeWithin s.now } := by
  simp only [execLineActivityStart, hreset, hactive, hgap, if_true, Bool.false_eq_true, if_false]
  rw [setLine_within (hkept.trans hactive.symm)]

theorem execLineActivityStart_after (hreset : inReset s = false) (hactive : s.line.active = true)
    (hgap : (s.line.readOn s.now).gapPassed s.now = true) :
    execLineActivityStart s = .next (beginActivity (endActivity (s.line.readOn s.now).changedAt
      ((s.line.readOn s.now).sampleTo ((s.line.readOn s.now).changedAt + Config.baseGap)) s)) := by
  simp only [execLineActivityStart, hreset, hactive, hgap, if_true, Bool.false_eq_true, if_false]

theorem execLineActivityStart_quiet (hreset : inReset s = false) (hactive : s.line.active = false)
    (hgap : s.line.awaitingGap = false) (hlevel : s.line.level = .recessive) :
    execLineActivityStart s = .next (beginActivity s) := by
  simp only [execLineActivityStart, hreset, hactive, hgap, hlevel, if_true, Bool.false_eq_true, if_false]

/-! ### The end of an activity leaves the line quiet (R82) -/

theorem takeDuplicate_line (hidle : s.line.transmitter = none) : (takeDuplicate s).line = s.line := by
  obtain ⟨attention, htaken⟩ := takeDuplicate_eq s
  rw [htaken]
  split_ifs with h
  · rw [enterIsolated_eq (by exact h.2)]
    simp only [settleReply_keeps]
    exact LineUnit.release_idle hidle s.now
  · rfl

theorem deliverMessage_line (m : Message) (hidle : s.line.transmitter = none) : (deliverMessage m s).line = s.line := by
  simp only [deliverMessage]
  split_ifs
  · simp [takeDuplicate_line hidle]
  · simp

/-- With nothing of the own on the line, an activity judged leaves its error behind and no more (R92, R94). -/
theorem judgeAndDeliver_line (u : LineUnit) (hidle : s.line.transmitter = none) :
    (judgeAndDeliver u s).line = { s.line with lastError := (judgeAndDeliver u s).line.lastError } := by
  by_cases hc : configured s = true
  · cases hj : judgeActivity u with
    | error k =>
      have hjudged : judgeAndDeliver u s = lineError k s := by simp [judgeAndDeliver, hc, hj]
      rw [hjudged, (lineError_configured hc k).1.frame]
    | ok m =>
      have hjudged : judgeAndDeliver u s = deliverMessage m s := by simp [judgeAndDeliver, hc, hj]
      rw [hjudged, deliverMessage_line m hidle]
  · have hjudged : judgeAndDeliver u s = s := by simp [judgeAndDeliver, hc]
    rw [hjudged]

theorem endActivity_line (reference : Nat) (u : LineUnit) (hidle : u.transmitter = none) :
    ∃ e, (endActivity reference u s).line = { u.quiet with lastError := e } := by
  have hquiet : (activityEnded reference u s).line.transmitter = none := hidle
  have hsettle : settleActivity u (activityEnded reference u s) = judgeAndDeliver u (activityEnded reference u s) := by
    simp only [settleActivity, hquiet]
  refine ⟨(judgeAndDeliver u (activityEnded reference u s)).line.lastError, ?_⟩
  calc (endActivity reference u s).line
      = (referencePoint reference (settleActivity u (activityEnded reference u s))).line := rfl
    _ = (judgeAndDeliver u (activityEnded reference u s)).line := by simp only [hsettle, referencePoint_keeps]
    _ = _ := judgeAndDeliver_line u hquiet

end

/-! ### The report of an activity (R81, R101, R110) -/

section
variable (s : State)

/-- The round timer stopped, before a WAITING attempt is abandoned (R101). -/
def roundStopped (s : State) : State := { s with con := { s.con with roundTimer := .stopped } }

theorem reportActivity_eq : reportActivity s = abandonAttempt (roundStopped s) := rfl

theorem reportActivity_roundTimer : (reportActivity s).con.roundTimer = .stopped := by
  rw [reportActivity_eq]
  rcases abandonAttempt_con (roundStopped s) with hcon | hcon <;> rw [hcon] <;> rfl

theorem reportActivity_not_waiting (b : Body) : (reportActivity s).con.attempt ≠ .waiting b :=
  abandonAttempt_not_waiting (roundStopped s) b

theorem reportActivity_abandoned : Abandoned s (reportActivity s) := abandonAttempt_abandoned (roundStopped s)

theorem reportActivity_seq : (reportActivity s).seq = { s.seq with trip := (reportActivity s).seq.trip } := by
  rw [reportActivity_eq, (abandonAttempt_lost (roundStopped s)).frame]
  rfl

theorem reportActivity_slots :
    (reportActivity s).con.releaseSlot = s.con.releaseSlot ∧ (reportActivity s).con.claimSlot = s.con.claimSlot ∧
      (reportActivity s).con.presenceDue = s.con.presenceDue ∧ (reportActivity s).con.failures = s.con.failures :=
  abandonAttempt_slots (roundStopped s)

end

/-- The line unit as an activity begins with an edge of the others (R81). -/
def lineBegun (now : Nat) (u : LineUnit) : LineUnit :=
  { u with
    others := .dominant, level := .dominant, readTo := now, changedAt := now, active := true
    startedAt := now, inHand := some { start := now, bits := [] }, inTimeUntil := 0, octets := []
    octetCount := 0, frameMark := false, longMark := false, longTimer := .running now }

theorem beginActivity_quiet {s : State} (hlevel : s.line.level = .recessive) (hactive : s.line.active = false)
    (hgap : s.line.awaitingGap = false) (hidle : s.line.transmitter = none) (hread : s.line.readTo ≤ s.now) :
    beginActivity s = reportActivity { s with line := lineBegun s.now s.line } := by
  rw [beginActivity, LineUnit.edgeNow_begins hlevel hactive hgap hidle hread]
  exact setLine_begins rfl hactive

/-- What an earlier activity left of its octets, and how far it was read, is no part of the one that begins (R81, R82). -/
theorem lineBegun_quiet {u : LineUnit} (hcoming : u.coming = []) (now t r : Nat) (l : Level) (e : LineError) :
    lineBegun now { ((u.sampleTo t).told l r).quiet with lastError := e } =
      lineBegun now { u with lastError := e } := by
  rw [(u.sampleTo_same t).frame]
  cases u
  simp only at hcoming
  subst hcoming
  rfl

/-- An edge after the base gap meets a receiver that has taken the end of the activity before it (R82, log 31). -/
theorem execLineActivityStart_anew {s : State} (hreset : inReset s = false) (hactive : s.line.active = true)
    (hgap : s.line.awaitingGap = false) (hidle : s.line.transmitter = none) (hcoming : s.line.coming = [])
    (hlevel : s.line.level = .recessive) (hread : s.line.readTo ≤ s.now) (hpassed : s.line.changedAt + 120 < s.now) :
    ∃ (e : LineError) (v : State), v.now = s.now ∧
      execLineActivityStart s = .next (reportActivity v) ∧ v.line = lineBegun s.now { s.line with lastError := e } := by
  have hreadOn := LineUnit.readOn_told hidle hcoming s.now
  have hgapPassed : (s.line.readOn s.now).gapPassed s.now = true := by
    rw [hreadOn, LineUnit.gapPassed_iff]
    exact ⟨hlevel, hpassed⟩
  have hexec := execLineActivityStart_after hreset hactive hgapPassed
  rw [hreadOn, LineUnit.sampleTo_told] at hexec
  have hsame := s.line.sampleTo_same (s.line.changedAt + Config.baseGap)
  obtain ⟨e, hended⟩ := endActivity_line (s := s) s.line.changedAt
    ((s.line.sampleTo (s.line.changedAt + Config.baseGap)).told s.line.others (max s.line.readTo (s.now - 1)))
    (hsame.transmitter.trans hidle)
  have hnow (u : LineUnit) : (endActivity s.line.changedAt u s).now = s.now := by
    simp only [endActivity_keeps, Config.baseGap, Config.bitTime]
    omega
  generalize hw : endActivity s.line.changedAt
    ((s.line.sampleTo (s.line.changedAt + Config.baseGap)).told s.line.others (max s.line.readTo (s.now - 1))) s = w at *
  have hbegins : beginActivity w = reportActivity { w with line := lineBegun w.now w.line } := by
    refine beginActivity_quiet ?_ ?_ ?_ ?_ ?_ <;> rw [hended]
    · exact hsame.level.trans hlevel
    · rfl
    · exact hsame.awaitingGap.trans hgap
    · exact hsame.transmitter.trans hidle
    · rw [← hw, hnow]
      exact max_le hread (Nat.sub_le ..)
  have hwnow : w.now = s.now := (congrArg State.now hw.symm).trans (hnow _)
  refine ⟨e, { w with line := lineBegun w.now w.line }, hwnow, ?_, ?_⟩
  · rw [hexec, LineUnit.told_changedAt, hw, hbegins]
  · rw [← lineBegun_quiet hcoming, ← hended, ← hwnow]

/-! ### Activity begins -/

theorem execLineActivityStart_late {s : State} {o : OctetInHand} (hreset : inReset s = false)
    (hactive : s.line.active = true) (hidle : s.line.transmitter = none) (hcoming : s.line.coming = [])
    (hlevel : s.line.level = .recessive) (hread : s.line.readTo ≤ s.now) (hstart : s.line.startedAt ≤ s.now)
    (ho : s.line.inHand = some o) (hbits : o.bits.length ≤ 8) (hlate : o.start + 110 ≤ s.now)
    (hgap : s.now ≤ s.line.changedAt + 120) :
    ∃ octets, execLineActivityStart s = .next { s with line := { s.line with
      others := .dominant, level := .dominant, readTo := s.now, changedAt := s.now, longTimer := .running s.now
      inHand := some { start := s.now, bits := [] }, inTimeUntil := o.start + 110
      octetCount := s.line.octetCount + 1, octets := octets, frameMark := true } } := by
  have hreadOn := LineUnit.readOn_told hidle hcoming s.now
  have hbefore : (s.line.readOn s.now).gapPassed s.now = false := by
    rw [← Bool.not_eq_true, hreadOn, LineUnit.gapPassed_iff]
    rintro ⟨-, hpassed⟩
    exact absurd hgap (Nat.not_le.mpr hpassed)
  obtain ⟨octets, hedge⟩ := LineUnit.edgeWithin_late
    (u := s.line.told s.line.others (max s.line.readTo (s.now - 1))) hactive hidle hlevel
    (max_le hread (Nat.sub_le ..)) hstart ho hbits hlate
  have hexec := execLineActivityStart_within hreset hactive hbefore (by rw [hreadOn, hedge]; exact hactive)
  rw [hreadOn, hedge] at hexec
  exact ⟨octets, hexec⟩

/-- Settles O49: for each command, the receiver at rest, in an activity before and after its base gap, and before the first one. -/
theorem activityBegins : Obligations.ActivityBegins := by
  unfold Obligations.ActivityBegins
  refine ⟨fun u c hidle hread => ?_, fun s hreset => ?_, fun s hreset hactive hgap hlevel hidle hread => ?_,
    fun s since hreset htimer hidle hcoming => ?_, fun s htimer hcoming => execLongDominantExpiry_stopped htimer hcoming,
    fun s o hreset hactive hidle hcoming hlevel hread hstart ho hbits hlate hgap => ?_,
    fun s hreset hactive hgap hidle hcoming hlevel hread hpassed => ?_, fun s hreset hgap hcoming => ?_,
    fun s c hreset hgap hactive hidle hcoming hlevel hc hread => ?_⟩
  · have hsame := u.sampleTo_same (u.instant c)
    have hchange := LineUnit.othersChange_idle (c := c) hidle hread
    refine ⟨by rw [hchange, LineUnit.told_others], ?_, by rw [hchange]; rfl, fun hlevel hc => ?_, fun hlevel hc => ?_,
      fun hc => ?_⟩
    · rw [hchange, LineUnit.told_level, LineUnit.setLevel_level]
    · obtain ⟨-, hchangedAt, htimer⟩ := LineUnit.dominantEdge_level (u.instant c) (u.sampleTo (u.instant c))
      have hactive := LineUnit.dominantEdge_active (u.instant c) (u.sampleTo (u.instant c))
      rw [hsame.active, hsame.awaitingGap] at hactive
      rw [LineUnit.othersChange_rises hidle hread hlevel hc]
      exact ⟨htimer, hchangedAt, hactive⟩
    · rw [LineUnit.othersChange_falls hidle hread hlevel hc]
      refine ⟨rfl, rfl, hsame.active, fun hactive => ?_⟩
      exact if_pos (hsame.active.trans hactive)
    · rw [LineUnit.othersChange_same hidle hread hc]
      rfl
  · refine ⟨execFirstBaseGap_none (.inl hreset), by simp [exec, execLongDominantExpiry, hreset], s.line.reset s.now,
      s.line.reset_anew s.now, by simp [exec, execLineActivityStart, hreset]⟩
  · have hexec := execLineActivityStart_quiet hreset hactive hgap hlevel
    rw [beginActivity_quiet hlevel hactive hgap hidle hread] at hexec
    obtain ⟨hrelease, hclaim, hdue, hfailures⟩ := reportActivity_slots { s with line := lineBegun s.now s.line }
    refine ⟨_, hexec, by simp [lineBegun], ?_, reportActivity_roundTimer _, reportActivity_not_waiting _,
      reportActivity_abandoned { s with line := lineBegun s.now s.line }, reportActivity_seq _, fun b hb => ?_, hrelease,
      hclaim, hdue, by simp, hfailures, by simp, by simp, by simp, by simp, by simp, by simp, by simp, by simp⟩
    · simp only [lineLevel, reportActivity_keeps]
      exact LineUnit.lineAt_idle (u := lineBegun s.now s.line) hidle s.now
    · rw [reportActivity_idle (by simp [hb])]
  · have hexec := execLongDominantExpiry_running hreset htimer hidle hcoming
    cases hc : configured s with
    | true =>
      obtain ⟨honly, hline⟩ := lineError_configured (s := longDominantReached since s) hc .longDominant
      rw [honly.frame] at hexec
      exact ⟨_, hexec, rfl, rfl, rfl, rfl, rfl, rfl, fun _ => ⟨rfl, hline⟩, nofun, rfl, rfl, rfl, rfl, rfl, rfl⟩
    | false =>
      rw [lineError_unconfigured (s := longDominantReached since s) .longDominant hc] at hexec
      exact ⟨_, hexec, rfl, rfl, rfl, rfl, rfl, rfl, nofun, fun _ => ⟨rfl, rfl⟩, rfl, rfl, rfl, rfl, rfl, rfl⟩
  · obtain ⟨octets, hexec⟩ :=
      execLineActivityStart_late hreset hactive hidle hcoming hlevel hread hstart ho hbits hlate hgap
    exact ⟨_, hexec, rfl, rfl⟩
  · obtain ⟨e, v, hnow, hexec, hline⟩ :=
      execLineActivityStart_anew hreset hactive hgap hidle hcoming hlevel hread hpassed
    refine ⟨_, hexec, by simp [hnow], ?_, reportActivity_roundTimer v, reportActivity_not_waiting v⟩
    simp [hline, lineBegun, hactive]
  · have hfollow : s.line.follow LineUnit.gapBefore s.line.coming = s.line := LineUnit.follow_none hcoming _
    refine ⟨fun hlevel => ?_, fun hlevel => execFirstBaseGap_none (.inr (by rw [hfollow, hlevel]))⟩
    have hexec := execFirstBaseGap_found hreset hgap (by rw [hfollow, hlevel])
    rw [hfollow, openReceiver_eq] at hexec
    refine ⟨_, hexec, rfl, ?_⟩
    simp [hcoming]
  · have hfollow : s.line.follow LineUnit.gapBefore s.line.coming = { s.line.othersChange c with coming := [] } := by
      rw [hcoming, LineUnit.follow_one hidle hlevel]
    have hsame := s.line.sampleTo_same (s.line.instant c)
    rw [LineUnit.othersChange_falls hidle hread hlevel hc] at hfollow
    have hexec := execFirstBaseGap_found hreset hgap (by rw [hfollow]; rfl)
    rw [hfollow, openReceiver_eq] at hexec
    exact ⟨_, hexec, rfl, rfl, rfl, rfl, hsame.active.trans hactive, rfl, rfl, rfl⟩

end Sys2Proof.Machine
end

section
/-!
A message read bit by bit (R79 to R82): what the receiver holds as each bit begins, and that every bit of a message keeps it so.
-/

namespace Sys2Proof.Machine

/-! ### The bits of an octet (R79, R80) -/

/-- The data bits of an octet in the order in which they are sent (R80). -/
def dataBits (b : Byte) : List Bool := (List.range 8).map b.getLsbD

theorem dataBits_length (b : Byte) : (dataBits b).length = 8 := rfl

theorem testBit_foldr_bits (l : List Bool) (i : Nat) :
    (l.foldr (fun (b : Bool) n => 2 * n + b.toNat) 0).testBit i = l.getD i false := by
  induction l generalizing i with
  | nil => simp
  | cons b l ih =>
    rw [List.foldr_cons, ← Nat.bit_val]
    cases i with
    | zero => exact Nat.testBit_bit_zero ..
    | succ i => exact (Nat.testBit_bit_succ ..).trans (ih i)

/-- An octet comes back from its data bits (R80, R81). -/
theorem octetOfBits_dataBits (b : Byte) : octetOfBits (dataBits b) = b := by
  refine BitVec.eq_of_getLsbD_eq fun i hi => ?_
  rw [octetOfBits, octet, BitVec.getLsbD_ofNat, testBit_foldr_bits]
  simp [dataBits, hi, List.getD]

theorem levelOfBit_recessive (b : Bool) : (levelOfBit b == .recessive) = b := by cases b <;> rfl

section
variable {octets : List Byte} {k : Nat} {b : Byte}

theorem sentLevel_octet (hb : octets[k / 10]? = some b) :
    sentLevel octets k = (octetLevels b).getD (k % 10) .recessive := by simp only [sentLevel, hb]

theorem sentLevel_start (hb : octets[k / 10]? = some b) (hk : k % 10 = 0) : sentLevel octets k = .dominant := by
  rw [sentLevel_octet hb, hk]
  rfl

theorem sentLevel_stop (hb : octets[k / 10]? = some b) (hk : k % 10 = 9) : sentLevel octets k = .recessive := by
  rw [sentLevel_octet hb, hk]
  rfl

theorem sentLevel_data (hb : octets[k / 10]? = some b) {i : Nat} (hk : k % 10 = i + 1) (hi : i < 8) :
    sentLevel octets k = levelOfBit (b.getLsbD i) := by
  have hlevel : (octetLevels b)[i + 1]? = some (levelOfBit (b.getLsbD i)) := by
    simp [octetLevels, List.getElem?_append_left, hi]
  rw [sentLevel_octet hb, hk, List.getD, hlevel, Option.getD_some]

theorem sentLevel_end (hk : 10 * octets.length ≤ k) : sentLevel octets k = .recessive := by
  have hnone : octets[k / 10]? = none := List.getElem?_eq_none (by omega)
  simp only [sentLevel, hnone]

end

/-! ### What the receiver holds (R81) -/

/-- The octet under way at the k-th bit of a message that began at an instant, with the bits sampled before that bit. -/
def octetAt (octets : List Byte) (n k : Nat) : OctetInHand :=
  { start := n + 100 * (k / 10), bits := (dataBits (octets.getD (k / 10) 0)).take (k % 10 - 1) }

/-- Nothing marked, and the octets before the one of the k-th bit are the message's. -/
structure OctetsKept (octets : List Byte) (k : Nat) (u : LineUnit) : Prop where
  kept : u.octets = octets.take (k / 10)
  count : u.octetCount = k / 10
  frame : u.frameMark = false

/-- The k-th bit is to be sampled: its octet is in hand with the bits before it (R81). -/
structure BitAwaited (octets : List Byte) (n k : Nat) (u : LineUnit) : Prop extends OctetsKept octets k u where
  inHand : u.inHand = some (octetAt octets n k)

/-- Every bit before the k-th has been sampled; between two octets the next start bit is in time (R81). -/
structure BitsSampled (octets : List Byte) (n k : Nat) (u : LineUnit) : Prop extends OctetsKept octets k u where
  within : k % 10 ≠ 0 → u.inHand = some (octetAt octets n k)
  between : k % 10 = 0 → u.inHand = none ∧ u.inTimeUntil = n + 10 * k + 10

section
variable {octets : List Byte} {n k : Nat} {u : LineUnit} {b : Byte}

theorem OctetsKept.of_eq {v : LineUnit} (h : OctetsKept octets k u) (ho : v.octets = u.octets)
    (hc : v.octetCount = u.octetCount) (hf : v.frameMark = u.frameMark) : OctetsKept octets k v :=
  ⟨ho.trans h.kept, hc.trans h.count, hf.trans h.frame⟩

/-- The next bit of the same octet finds the same octets before it. -/
theorem OctetsKept.next (h : OctetsKept octets k u) (hk : k % 10 ≠ 9) : OctetsKept octets (k + 1) u := by
  have hoctet : (k + 1) / 10 = k / 10 := by omega
  exact ⟨by rw [hoctet, h.kept], by rw [hoctet, h.count], h.frame⟩

theorem octetAt_bits_length (octets : List Byte) (n k : Nat) : (octetAt octets n k).bits.length = k % 10 - 1 := by
  simp only [octetAt, List.length_take, dataBits_length]
  omega

theorem octetAt_midBit (octets : List Byte) (n : Nat) (hk : k % 10 ≠ 0) :
    midBit (octetAt octets n k).start ((octetAt octets n k).bits.length + 1) = n + 10 * k + 5 := by
  rw [octetAt_bits_length]
  simp only [midBit, octetAt, Config.bitTime]
  omega

/-- The start bit itself is not sampled (R81). -/
theorem octetAt_start (octets : List Byte) (n : Nat) (hk : k % 10 = 0) : octetAt octets n (k + 1) = octetAt octets n k := by
  have hoctet : (k + 1) / 10 = k / 10 := by omega
  have hbit : (k + 1) % 10 - 1 = k % 10 - 1 := by omega
  rw [octetAt, octetAt, hoctet, hbit]

theorem octetAt_data (n : Nat) (hb : octets[k / 10]? = some b) {i : Nat} (hk : k % 10 = i + 1) (hi : i < 8) :
    octetAt octets n (k + 1) =
      { octetAt octets n k with bits := (octetAt octets n k).bits ++ [sentLevel octets k == .recessive] } := by
  have hoctet : (k + 1) / 10 = k / 10 := by omega
  have hbit : (k + 1) % 10 - 1 = i + 1 := by omega
  have hget : (dataBits b)[i]? = some (b.getLsbD i) := by simp [dataBits, hi]
  have hbyte : octets.getD (k / 10) 0 = b := by simp [List.getD, hb]
  simp only [octetAt, hoctet, hbit, hk, Nat.add_sub_cancel, hbyte, sentLevel_data hb hk hi, levelOfBit_recessive,
    List.take_add_one, hget, Option.toList_some]

theorem octetAt_stop (n : Nat) (hb : octets[k / 10]? = some b) (hk : k % 10 = 9) :
    octetOfBits (octetAt octets n k).bits = b := by
  have hbyte : octets.getD (k / 10) 0 = b := by simp [List.getD, hb]
  have hall : (octetAt octets n k).bits = dataBits b := by
    rw [octetAt, hbyte, hk]
    exact List.take_of_length_le (dataBits_length b).le
  rw [hall, octetOfBits_dataBits]

/-! ### A bit time (R81) -/

theorem BitAwaited.sampled_start (h : BitAwaited octets n k u) (hk : k % 10 = 0) :
    BitsSampled octets n (k + 1) (u.sampleTo (n + 10 * (k + 1))) := by
  have hearly : u.sampleTo (n + 10 * (k + 1)) = u := by
    refine LineUnit.sampleTo_early h.inHand ?_
    rw [octetAt_bits_length]
    simp only [midBit, octetAt, Config.bitTime]
    omega
  rw [hearly]
  exact ⟨h.toOctetsKept.next (by omega), fun _ => by rw [octetAt_start octets n hk, h.inHand], fun hk' => by omega⟩

theorem BitAwaited.sampled_data (h : BitAwaited octets n k u) (hlevel : u.level = sentLevel octets k)
    (hb : octets[k / 10]? = some b) {i : Nat} (hk : k % 10 = i + 1) (hi : i < 8) :
    BitsSampled octets n (k + 1) (u.sampleTo (n + 10 * (k + 1))) := by
  have hmid := octetAt_midBit octets n (k := k) (by omega)
  have hmid' := octetAt_midBit octets n (k := k + 1) (by omega)
  have hdata : u.sampleBit (n + 10 * (k + 1)) = { u with inHand := some (octetAt octets n (k + 1)) } := by
    rw [LineUnit.sampleBit_data h.inHand (by rw [hmid]; omega) (by rw [octetAt_bits_length]; omega), hlevel,
      octetAt_data n hb hk hi]
  have hone : u.sampleTo (n + 10 * (k + 1)) = { u with inHand := some (octetAt octets n (k + 1)) } := by
    rw [LineUnit.sampleTo_one, hdata]
    rw [hdata]
    exact LineUnit.sampleBit_early rfl (by rw [hmid']; omega)
  rw [hone]
  exact ⟨(h.toOctetsKept.next (by omega)).of_eq rfl rfl rfl, fun _ => rfl, fun hk' => by omega⟩

theorem BitAwaited.sampled_stop (h : BitAwaited octets n k u) (hlevel : u.level = sentLevel octets k)
    (hb : octets[k / 10]? = some b) (hk : k % 10 = 9) (hlength : octets.length ≤ 16) :
    BitsSampled octets n (k + 1) (u.sampleTo (n + 10 * (k + 1))) := by
  have hmid := octetAt_midBit octets n (k := k) (by omega)
  obtain ⟨hlt, -⟩ := List.getElem?_eq_some_iff.mp hb
  have hstop : u.sampleBit (n + 10 * (k + 1)) = u.closeOctet (octetAt octets n k) :=
    LineUnit.sampleBit_stop h.inHand (by rw [hmid]; omega) (by rw [octetAt_bits_length]; omega)
  have hone : u.sampleTo (n + 10 * (k + 1)) = u.closeOctet (octetAt octets n k) := by
    rw [LineUnit.sampleTo_one, hstop]
    rw [hstop]
    exact LineUnit.sampleBit_none rfl
  have hoctet : (k + 1) / 10 = k / 10 + 1 := by omega
  have hroom : u.octets.length < 16 := by
    rw [h.kept, List.length_take]
    omega
  rw [hone]
  refine ⟨⟨?_, ?_, ?_⟩, fun hk' => by omega, fun _ => ⟨rfl, ?_⟩⟩
  · simp only [LineUnit.closeOctet, hroom, if_true, octetAt_stop n hb hk]
    rw [hoctet, List.take_add_one, hb, h.kept, Option.toList_some]
  · simp only [LineUnit.closeOctet, h.count, hoctet]
  · simp only [LineUnit.closeOctet, h.frame, hlevel, sentLevel_stop hb hk]
    rfl
  · simp only [LineUnit.closeOctet, octetAt, Config.bitTime]
    omega

/-- At the end of its bit time the bit that was awaited has been sampled as it was sent (R81). -/
theorem BitAwaited.sampled (h : BitAwaited octets n k u) (hlevel : u.level = sentLevel octets k)
    (hk : k < 10 * octets.length) (hlength : octets.length ≤ 16) :
    BitsSampled octets n (k + 1) (u.sampleTo (n + 10 * (k + 1))) := by
  have hb : octets[k / 10]? = some octets[k / 10] := List.getElem?_eq_getElem (by omega)
  rcases hr : k % 10 with _ | i
  · exact h.sampled_start hr
  · rcases (show i < 8 ∨ i = 8 by omega) with hi | rfl
    · exact h.sampled_data hlevel hb hr hi
    · exact h.sampled_stop hlevel hb hr hlength

end

end Sys2Proof.Machine
end

section
/-!
The line through a whole message (R79 to R83): each bit as it begins, whoever drives it, and the end of its activity.
-/

namespace Sys2Proof.Machine

/-! ### An edge in an activity (R81) -/

section
variable {octets : List Byte} {n k t : Nat} {u : LineUnit} {o : OctetInHand}

theorem LineUnit.dominantEdge_inOctet (hactive : u.active = true) (ho : u.inHand = some o) (t : Nat) :
    u.dominantEdge t = { u with level := .dominant, changedAt := t, longTimer := .running t } := by
  simp [LineUnit.dominantEdge, hactive, ho]

/-- Between two octets the edge begins the next, late unless it is in time (R81). -/
theorem LineUnit.dominantEdge_opens (hactive : u.active = true) (ho : u.inHand = none) (t : Nat) :
    u.dominantEdge t = { u with
      level := .dominant, changedAt := t, longTimer := .running t, inHand := some { start := t }
      frameMark := u.frameMark || decide (u.inTimeUntil ≤ t) } := by
  simp [LineUnit.dominantEdge, hactive, ho]

/-- What an edge in an activity keeps of it. -/
theorem LineUnit.dominantEdge_keeps (hactive : u.active = true) (t : Nat) :
    (u.dominantEdge t).startedAt = u.startedAt ∧ (u.dominantEdge t).longMark = u.longMark := by
  cases ho : u.inHand with
  | none =>
    rw [LineUnit.dominantEdge_opens hactive ho]
    exact ⟨rfl, rfl⟩
  | some o =>
    rw [LineUnit.dominantEdge_inOctet hactive ho]
    exact ⟨rfl, rfl⟩

/-- A timer that is stopped, or began at most 16 bit times before, is not overdue (R83). -/
theorem LineUnit.overdue_not (h : ∀ since, u.longTimer = .running since → t ≤ since + 160) : u.overdue t = false := by
  cases htimer : u.longTimer with
  | stopped => simp [LineUnit.overdue, htimer]
  | running since =>
    have hbefore : u.overdue t = decide (since + 160 < t) := by simp only [LineUnit.overdue, htimer]; rfl
    rw [hbefore, decide_eq_false_iff_not]
    exact Nat.not_lt.mpr (h since htimer)

/-! ### The bit that begins is awaited (R81) -/

theorem BitsSampled.awaits (h : BitsSampled octets n k u) (hk : k % 10 ≠ 0) : BitAwaited octets n k u :=
  ⟨h.toOctetsKept, h.within hk⟩

theorem BitsSampled.falls (h : BitsSampled octets n k u) (hk : k % 10 ≠ 0) (t : Nat) :
    BitAwaited octets n k (u.recessiveEdge t) :=
  ⟨h.toOctetsKept.of_eq rfl rfl rfl, h.within hk⟩

theorem BitsSampled.rises (h : BitsSampled octets n k u) (hactive : u.active = true) :
    BitAwaited octets n k (u.dominantEdge (n + 10 * k)) := by
  by_cases hk : k % 10 = 0
  · obtain ⟨hnone, htime⟩ := h.between hk
    have hstart : octetAt octets n k = { start := n + 10 * k } := by
      simp only [octetAt, hk, Nat.zero_sub, List.take_zero, OctetInHand.mk.injEq, and_true]
      omega
    rw [LineUnit.dominantEdge_opens hactive hnone]
    refine ⟨⟨h.kept, h.count, ?_⟩, by rw [hstart]⟩
    simp [h.frame, htime]
  · rw [LineUnit.dominantEdge_inOctet hactive (h.within hk)]
    exact ⟨h.toOctetsKept.of_eq rfl rfl rfl, h.within hk⟩

end

/-! ### A bit of the message begins (R80 to R83) -/

/-- The k-th bit of a message has begun and no later one: all that has been read is the message, no stretch of one level was longer
than an octet, and a recessive line has its reference (R81 to R83). -/
structure BitBegun (octets : List Byte) (n k : Nat) (u : LineUnit) : Prop where
  active : u.active = true
  startedAt : u.startedAt = n
  level : u.level = sentLevel octets k
  sampled : BitsSampled octets n (k + 1) (u.sampleTo (n + 10 * (k + 1)))
  longMark : u.longMark = false
  timer : u.longTimer = .running u.changedAt ∨ u.longTimer = .stopped
  changed : n + 100 * (k / 10) ≤ u.changedAt ∧ u.changedAt ≤ n + 10 * k
  reference : u.level = .recessive → n + 100 * (k / 10) < u.changedAt ∧ u.endReference = some u.changedAt

section
variable {octets : List Byte} {n k : Nat} {u : LineUnit}

/-- Within an octet the line may hold its level. -/
theorem BitBegun.holds (h : BitBegun octets n k u) (hsame : sentLevel octets (k + 1) = u.level)
    (hk : k + 1 < 10 * octets.length) (hlength : octets.length ≤ 16) (hr : (k + 1) % 10 ≠ 0) :
    BitBegun octets n (k + 1) u := by
  have hoctet : (k + 1) / 10 = k / 10 := by omega
  have hsampled := (h.sampled.awaits hr).sampled ((u.sampleTo_same _).level.trans hsame.symm) hk hlength
  rw [LineUnit.sampleTo_sampleTo (by omega)] at hsampled
  refine ⟨h.active, h.startedAt, hsame.symm, hsampled, h.longMark, h.timer, ?_, ?_⟩
  · obtain ⟨hfrom, hto⟩ := h.changed
    rw [hoctet]
    exact ⟨hfrom, by omega⟩
  · rw [hoctet]
    exact h.reference

theorem BitBegun.rises (h : BitBegun octets n k u) (hlow : sentLevel octets (k + 1) = .dominant)
    (hk : k + 1 < 10 * octets.length) (hlength : octets.length ≤ 16) :
    BitBegun octets n (k + 1) ((u.sampleTo (n + 10 * (k + 1))).dominantEdge (n + 10 * (k + 1))) := by
  have hsame := u.sampleTo_same (n + 10 * (k + 1))
  have hactive := hsame.active.trans h.active
  obtain ⟨hlevel, hchanged, htimer⟩ := LineUnit.dominantEdge_level (n + 10 * (k + 1)) (u.sampleTo (n + 10 * (k + 1)))
  obtain ⟨hstarted, hlong⟩ := LineUnit.dominantEdge_keeps hactive (n + 10 * (k + 1))
  refine ⟨?_, hstarted.trans (hsame.startedAt.trans h.startedAt), hlevel.trans hlow.symm,
    (h.sampled.rises hactive).sampled (hlevel.trans hlow.symm) hk hlength, hlong.trans (hsame.longMark.trans h.longMark),
    .inl (by rw [hchanged, htimer]), ?_, fun hhigh => absurd (hlevel.symm.trans hhigh) Level.noConfusion⟩
  · rw [LineUnit.dominantEdge_active, hactive, Bool.true_or]
  · rw [hchanged]
    omega

theorem BitBegun.falls (h : BitBegun octets n k u) (hhigh : sentLevel octets (k + 1) = .recessive)
    (hk : k + 1 < 10 * octets.length) (hlength : octets.length ≤ 16) (hr : (k + 1) % 10 ≠ 0) :
    BitBegun octets n (k + 1) ((u.sampleTo (n + 10 * (k + 1))).recessiveEdge (n + 10 * (k + 1))) := by
  have hsame := u.sampleTo_same (n + 10 * (k + 1))
  obtain ⟨hfrom, -⟩ := h.changed
  have hintime : (u.sampleTo (n + 10 * (k + 1))).overdue (n + 10 * (k + 1)) = false := by
    refine LineUnit.overdue_not fun since hsince => ?_
    rw [hsame.longTimer] at hsince
    rcases h.timer with ht | ht
    · obtain rfl : u.changedAt = since := Timer.running.inj (ht.symm.trans hsince)
      omega
    · exact absurd (ht.symm.trans hsince) Timer.noConfusion
  refine ⟨hsame.active.trans h.active, hsame.startedAt.trans h.startedAt, hhigh.symm,
    (h.sampled.falls hr _).sampled hhigh.symm hk hlength, ?_, .inr rfl, ⟨?_, Nat.le_refl _⟩, fun _ => ⟨?_, ?_⟩⟩
  · simp [LineUnit.recessiveEdge, hintime, hsame.longMark, h.longMark]
  · simp only [LineUnit.recessiveEdge]
    omega
  · simp only [LineUnit.recessiveEdge]
    omega
  · simp [LineUnit.recessiveEdge, hsame.active, h.active]

/-- The next bit of a message begins at its instant, whatever its level. -/
theorem BitBegun.next (h : BitBegun octets n k u) (hk : k + 1 < 10 * octets.length) (hlength : octets.length ≤ 16) :
    BitBegun octets n (k + 1) (u.setLevel (n + 10 * (k + 1)) (sentLevel octets (k + 1))) := by
  have hb : octets[(k + 1) / 10]? = some octets[(k + 1) / 10] := List.getElem?_eq_getElem (by omega)
  have hb' : octets[k / 10]? = some octets[k / 10] := List.getElem?_eq_getElem (by omega)
  have hstart : (k + 1) % 10 = 0 → sentLevel octets (k + 1) = .dominant := sentLevel_start hb
  have hstop : (k + 1) % 10 = 0 → u.level = .recessive := fun hr => h.level.trans (sentLevel_stop hb' (by omega))
  cases hnext : sentLevel octets (k + 1) with
  | dominant =>
    cases hlevel : u.level with
    | dominant =>
      rw [← hlevel, LineUnit.setLevel_same]
      refine h.holds (hnext.trans hlevel.symm) hk hlength fun hr => ?_
      exact absurd (hlevel.symm.trans (hstop hr)) Level.noConfusion
    | recessive =>
      rw [LineUnit.setLevel_rises hlevel]
      exact h.rises hnext hk hlength
  | recessive =>
    have hr : (k + 1) % 10 ≠ 0 := fun hr => absurd (hnext.symm.trans (hstart hr)) Level.noConfusion
    cases hlevel : u.level with
    | dominant =>
      rw [LineUnit.setLevel_falls hlevel]
      exact h.falls hnext hk hlength hr
    | recessive =>
      rw [← hlevel, LineUnit.setLevel_same]
      exact h.holds (hnext.trans hlevel.symm) hk hlength hr

/-- What is told of the others, and how far the line is read, is no part of what the receiver holds. -/
theorem BitBegun.told (h : BitBegun octets n k u) (l : Level) (r : Nat) : BitBegun octets n k (u.told l r) := by
  refine ⟨h.active, h.startedAt, h.level, ?_, h.longMark, h.timer, h.changed, h.reference⟩
  rw [LineUnit.sampleTo_told]
  exact ⟨h.sampled.toOctetsKept.of_eq rfl rfl rfl, h.sampled.within, h.sampled.between⟩

end

end Sys2Proof.Machine
end

section
/-!
A valid message sent and received (R79 to R82, R84, R88, R92): the whole activity from its first edge to its end, the fields read
back, and from these O25.
-/

namespace Sys2Proof.Machine

/-! ### The bits that a station sends (R80) -/

theorem sentLevel_add_ten (b : Byte) (octets : List Byte) (k : Nat) : sentLevel (b :: octets) (10 + k) = sentLevel octets k := by
  have hoctet : (10 + k) / 10 = k / 10 + 1 := by omega
  have hbit : (10 + k) % 10 = k % 10 := by omega
  simp only [sentLevel, hoctet, hbit, List.getElem?_cons_succ]

theorem lineLevels_eq (octets : List Byte) :
    lineLevels octets = (List.range (10 * octets.length)).map (sentLevel octets) := by
  induction octets with
  | nil => rfl
  | cons b octets ih =>
    have hfirst : (List.range 10).map (sentLevel (b :: octets)) = octetLevels b := rfl
    have hrest : (sentLevel (b :: octets) ∘ (10 + ·)) = sentLevel octets := funext fun k => sentLevel_add_ten b octets k
    have hlength : 10 * (b :: octets).length = 10 + 10 * octets.length := by rw [List.length_cons]; omega
    rw [hlength, List.range_add, List.map_append, List.map_map, hfirst, hrest, ← ih]
    rfl

/-- The k-th bit of a message as another station sends it, counted from its first edge. -/
def bitChange (octets : List Byte) (k : Nat) : LineChange := { after := k * 10, level := sentLevel octets k }

theorem bitChanges_eq (octets : List Byte) :
    bitChanges octets = (List.range (10 * octets.length)).map (bitChange octets) := by
  rw [bitChanges, lineLevels_eq]
  refine List.ext_getElem (by simp) fun k _ _ => ?_
  simp [bitChange, Config.bitTime]

/-! ### The first bit (R81) -/

/-- A line unit as an activity begins with an edge (R81). -/
def LineUnit.begun (n : Nat) (u : LineUnit) : LineUnit :=
  { u with
    level := .dominant, changedAt := n, longTimer := .running n, active := true, startedAt := n
    inHand := some { start := n }, inTimeUntil := 0, octets := [], octetCount := 0, frameMark := false
    longMark := false }

section
variable {octets : List Byte} {n k : Nat} {u : LineUnit}

theorem BitBegun.first (hne : octets ≠ []) (hlength : octets.length ≤ 16) (u : LineUnit) :
    BitBegun octets n 0 (u.begun n) := by
  have hlevel : (u.begun n).level = sentLevel octets 0 := (sentLevel_zero hne).symm
  have hawaited : BitAwaited octets n 0 (u.begun n) := ⟨⟨rfl, rfl, rfl⟩, rfl⟩
  have hpos := List.length_pos_of_ne_nil hne
  exact ⟨rfl, rfl, hlevel, hawaited.sampled hlevel (by omega) hlength, rfl, .inl rfl, ⟨Nat.le_refl _, Nat.le_refl _⟩, nofun⟩

/-! ### The bits that follow it, sent by another station (R79, R82) -/

theorem BitBegun.no_gap (h : BitBegun octets n k u) (hidle : u.transmitter = none) (j : Nat) (hj : j ≤ k + 1) :
    u.gapBefore (bitChange octets j) = false := by
  rw [LineUnit.gapBefore_idle hidle, ← Bool.not_eq_true, LineUnit.gapPassed_iff]
  rintro ⟨-, hpassed⟩
  obtain ⟨hfrom, -⟩ := h.changed
  simp only [LineUnit.instant, h.startedAt, bitChange, Config.baseGap, Config.bitTime] at hpassed
  omega

/-- What one bit of another station does: the next bit has begun. -/
theorem BitBegun.told_next (h : BitBegun octets n k u) (hk : k + 1 < 10 * octets.length) (hlength : octets.length ≤ 16)
    (hidle : u.transmitter = none) (hread : u.readTo ≤ n + 10 * k) :
    BitBegun octets n (k + 1) (u.othersChange (bitChange octets (k + 1))) ∧
      (u.othersChange (bitChange octets (k + 1))).readTo = n + 10 * (k + 1) ∧
      (u.othersChange (bitChange octets (k + 1))).transmitter = none ∧
      (u.othersChange (bitChange octets (k + 1))).coming = u.coming := by
  have hinstant : u.instant (bitChange octets (k + 1)) = n + 10 * (k + 1) := by
    simp only [LineUnit.instant, h.startedAt, bitChange]
    omega
  have hchange := LineUnit.othersChange_idle (c := bitChange octets (k + 1)) hidle (by rw [hinstant]; omega)
  have hdrive := u.setLevel_drive (n + 10 * (k + 1)) (sentLevel octets (k + 1))
  rw [hinstant] at hchange
  rw [hchange]
  exact ⟨(h.next hk hlength).told _ _, rfl, hdrive.transmitter.trans hidle, hdrive.coming⟩

theorem BitBegun.follow (h : BitBegun octets n k u) {m : Nat} (hm : k + m < 10 * octets.length)
    (hlength : octets.length ≤ 16) (hidle : u.transmitter = none) (hread : u.readTo ≤ n + 10 * k) (hcoming : u.coming = []) :
    BitBegun octets n (k + m) (u.follow LineUnit.gapBefore ((List.range' (k + 1) m).map (bitChange octets))) := by
  induction m generalizing k u with
  | zero =>
    rw [List.range'_zero, List.map_nil, LineUnit.follow_nil, LineUnit.coming_nil hcoming]
    exact h
  | succ m ih =>
    obtain ⟨hnext, hread', hidle', hcoming'⟩ := h.told_next (by omega) hlength hidle hread
    rw [List.range'_succ, List.map_cons, LineUnit.follow_cons, h.no_gap hidle _ (Nat.le_refl _), if_neg Bool.noConfusion,
      show k + (m + 1) = k + 1 + m by omega]
    exact ih hnext (by omega) hidle' hread'.le (hcoming'.trans hcoming)

/-! ### The bits that follow it, sent by this station (R80, R85) -/

/-- On a line that follows and that no other holds, what is driven is what is read (R79). -/
theorem LineUnit.lineAt_own {x : Sending} (hx : u.transmitter = some x) (hf : u.follows = true)
    (ho : u.others = .recessive) (t : Nat) : u.lineAt t = x.levelAt t := by
  have hwired (l : Level) : wiredAnd l .recessive = l := by cases l <;> rfl
  rw [LineUnit.lineAt, hf, if_pos rfl, ho, hwired, LineUnit.driven, hx]

theorem Sending.levelAt_bit (octets : List Byte) (n k : Nat) :
    Sending.levelAt { octets := octets, startedAt := n } (n + 10 * k) = sentLevel octets k := by
  simp [Sending.levelAt, Config.bitTime]

theorem LineUnit.settle_level_told (t : Nat) (u : LineUnit) :
    u.settle t = (u.setLevel t (u.lineAt t)).told u.others (max u.readTo t) :=
  LineUnit.settle_told t u.readTo u.others u

theorem BitBegun.settle_next (h : BitBegun octets n k u) (hk : k + 1 < 10 * octets.length) (hlength : octets.length ≤ 16)
    (hx : u.transmitter = some { octets := octets, startedAt := n }) (hf : u.follows = true) (ho : u.others = .recessive) :
    BitBegun octets n (k + 1) (u.settle (n + 10 * (k + 1))) := by
  rw [LineUnit.settle_level_told, LineUnit.lineAt_own hx hf ho, Sending.levelAt_bit]
  exact (h.next hk hlength).told _ _

theorem BitBegun.drive (h : BitBegun octets n k u) {m : Nat} (hm : k + m < 10 * octets.length)
    (hlength : octets.length ≤ 16) (hx : u.transmitter = some { octets := octets, startedAt := n })
    (hf : u.follows = true) (ho : u.others = .recessive) :
    BitBegun octets n (k + m)
      (((List.range' (k + 1) m).map fun j => n + 10 * j).foldl (fun u e => u.settle e) u) := by
  induction m generalizing k u with
  | zero => exact h
  | succ m ih =>
    have hnext := h.settle_next (by omega) hlength hx hf ho
    have hdrive := u.settle_drive (n + 10 * (k + 1))
    rw [List.range'_succ, List.map_cons, List.foldl_cons, show k + (m + 1) = k + 1 + m by omega]
    exact ih hnext (by omega) (hdrive.transmitter.trans hx) (hdrive.follows.trans hf) (hdrive.others.trans ho)

end

/-! ### The end (R82) -/

/-- A whole message has been read: the line is recessive with its reference inside the last octet, and 12 bit times later the octets of
the message are there, and nothing is marked (R81 to R83). -/
structure MessageRead (octets : List Byte) (n : Nat) (u : LineUnit) : Prop where
  level : u.level = .recessive
  reference : u.endReference = some u.changedAt
  changed : n + 100 * (octets.length - 1) < u.changedAt ∧ u.changedAt ≤ n + 100 * octets.length - 10
  ended : u.sampleTo (u.changedAt + 120) = u.sampleTo (n + 100 * octets.length)
  read : (u.sampleTo (n + 100 * octets.length)).octets = octets
  count : (u.sampleTo (n + 100 * octets.length)).octetCount = octets.length
  frame : (u.sampleTo (n + 100 * octets.length)).frameMark = false
  long : (u.sampleTo (n + 100 * octets.length)).longMark = false

section
variable {octets : List Byte} {n k : Nat} {u : LineUnit}

theorem BitBegun.messageRead (h : BitBegun octets n k u) (hk : k + 1 = 10 * octets.length) : MessageRead octets n u := by
  have hb : octets[k / 10]? = some octets[k / 10] := List.getElem?_eq_getElem (by omega)
  have hlevel : u.level = .recessive := h.level.trans (sentLevel_stop hb (by omega))
  obtain ⟨hfrom, hreference⟩ := h.reference hlevel
  obtain ⟨-, hto⟩ := h.changed
  obtain ⟨hnone, -⟩ := h.sampled.between (by omega)
  have hinstant : n + 10 * (k + 1) = n + 100 * octets.length := by omega
  have hall : (k + 1) / 10 = octets.length := by omega
  have hsampled := h.sampled
  rw [hinstant] at hnone hsampled
  refine ⟨hlevel, hreference, by omega, ?_, ?_, hsampled.count.trans hall, hsampled.frame,
    (u.sampleTo_same _).longMark.trans h.longMark⟩
  · rw [← LineUnit.sampleTo_sampleTo (t := n + 100 * octets.length) (by omega), LineUnit.sampleTo_none hnone]
  · rw [hsampled.kept, hall, List.take_length]

theorem MessageRead.told (h : MessageRead octets n u) (l : Level) (r : Nat) : MessageRead octets n (u.told l r) := by
  refine ⟨h.level, h.reference, h.changed, ?_, ?_, ?_, ?_, ?_⟩
  · rw [LineUnit.sampleTo_told, LineUnit.sampleTo_told, LineUnit.told_changedAt, h.ended]
  · rw [LineUnit.sampleTo_told]
    exact h.read
  · rw [LineUnit.sampleTo_told]
    exact h.count
  · rw [LineUnit.sampleTo_told]
    exact h.frame
  · rw [LineUnit.sampleTo_told]
    exact h.long

/-- The end of the message's activity is recognised at its reference, with all its octets and no mark (R82). -/
theorem MessageRead.recognised {changes : List LineChange} (h : MessageRead octets n (u.followToEnd changes)) :
    ∃ reference v, u.recognised changes = some (reference, v) ∧ v.octets = octets ∧ v.octetCount = octets.length ∧
      v.frameMark = false ∧ v.longMark = false ∧ n + 100 * (octets.length - 1) < reference ∧
      reference ≤ n + 100 * octets.length - 10 := by
  obtain ⟨hfrom, hto⟩ := h.changed
  refine ⟨_, (u.followToEnd changes).sampleTo (n + 100 * octets.length), ?_, h.read, h.count, h.frame, h.long, hfrom, hto⟩
  simp only [LineUnit.recognised, h.level, h.reference]
  rw [← h.ended]
  rfl

end

section
variable {octets : List Byte} {n : Nat} {u : LineUnit}

/-- The first bit is the edge itself, and changes nothing more. -/
theorem LineUnit.follow_first (hne : octets ≠ []) (hlength : octets.length ≤ 16) (hidle : u.transmitter = none)
    (hcoming : u.coming = []) (hread : u.readTo ≤ n) :
    BitBegun octets n (10 * octets.length - 1)
      ((u.begun n).follow LineUnit.gapBefore (bitChanges octets)) := by
  have hpos := List.length_pos_of_ne_nil hne
  have hfirst := BitBegun.first (n := n) hne hlength u
  have hlevel : (bitChange octets 0).level = (u.begun n).level := sentLevel_zero hne
  have hinstant : (u.begun n).instant (bitChange octets 0) = n := by
    simp [LineUnit.instant, LineUnit.begun, bitChange]
  have hbits : 10 * octets.length = (10 * octets.length - 1) + 1 := by omega
  have hsplit : bitChanges octets =
      bitChange octets 0 :: (List.range' 1 (10 * octets.length - 1)).map (bitChange octets) := by
    rw [bitChanges_eq, hbits, List.range_eq_range', List.range'_succ, List.map_cons]
    rfl
  have hquiet : (u.begun n).transmitter = none := hidle
  have hstays := LineUnit.othersChange_same hquiet (by rw [hinstant]; exact hread) hlevel
  have hfollow := (hfirst.told (bitChange octets 0).level n).follow (m := 10 * octets.length - 1) (by omega) hlength hidle
    (Nat.le_refl _) hcoming
  rw [Nat.zero_add] at hfollow
  rw [hsplit, LineUnit.follow_cons, hfirst.no_gap hidle 0 (Nat.zero_le _), if_neg Bool.noConfusion, hstays, hinstant]
  exact hfollow

/-- Driven by another station a message is read whole (R79 to R82). -/
theorem LineUnit.messageRead_others (hne : octets ≠ []) (hlength : octets.length ≤ 16) (hactive : u.active = false)
    (hgap : u.awaitingGap = false) (hlevel : u.level = .recessive) (hidle : u.transmitter = none)
    (hcoming : u.coming = []) (hread : u.readTo ≤ n) :
    MessageRead octets n ((u.edgeNow n).followToEnd (bitChanges octets)) := by
  have hpos := List.length_pos_of_ne_nil hne
  have hedge : u.edgeNow n = (u.told .dominant n).begun n :=
    LineUnit.edgeNow_begins hlevel hactive hgap hidle hread
  have hfollow := LineUnit.follow_first (u := u.told .dominant n) hne hlength hidle hcoming (Nat.le_refl n)
  obtain ⟨-, -, htransmitter, -⟩ :=
    ((u.told .dominant n).begun n).follow_keeps LineUnit.gapBefore (bitChanges octets)
  have hquiet : ((u.told .dominant n).begun n).transmitter = none := hidle
  have hnothing : ((u.told .dominant n).begun n).coming = [] := hcoming
  rw [hedge, LineUnit.followToEnd, hnothing, List.nil_append, LineUnit.driveTo_told (htransmitter.trans hquiet)]
  exact (hfollow.messageRead (by omega)).told _ _

/-- The instants at which the own drive changes after the first bit: the beginning of each later bit, and the end (R85). -/
theorem LineUnit.bitEdges_after (hx : u.transmitter = some { octets := octets, startedAt := n }) (hread : u.readTo = n) :
    (u.bitEdges.filter fun e => decide (u.readTo < e ∧ e ≤ n + 100 * octets.length)) =
      (List.range' 1 (10 * octets.length)).map fun j => n + 10 * j := by
  have hedges : u.bitEdges = n :: (List.range' 1 (10 * octets.length)).map fun j => n + 10 * j := by
    simp only [LineUnit.bitEdges, hx, Config.bitTime]
    rw [List.range_eq_range', List.range'_succ, List.map_cons]
    simp [mul_comm]
  rw [hedges, List.filter_cons_of_neg (by simp [hread]), List.filter_eq_self]
  intro e he
  obtain ⟨j, hj, rfl⟩ := List.mem_map.mp he
  obtain ⟨hfrom, hto⟩ := List.mem_range'_1.mp hj
  rw [decide_eq_true_iff, hread]
  omega

/-- The last bit over, the released line stays as its stop bit left it (R80, R85). -/
theorem MessageRead.settle_end (h : MessageRead octets n u) (hx : u.transmitter = some { octets := octets, startedAt := n })
    (hf : u.follows = true) (ho : u.others = .recessive) :
    MessageRead octets n (u.settle (n + 10 * (10 * octets.length))) := by
  rw [LineUnit.settle_level_told, LineUnit.lineAt_own hx hf ho, Sending.levelAt_bit, sentLevel_end (Nat.le_refl _),
    ← h.level, LineUnit.setLevel_same]
  exact h.told _ _

theorem BitBegun.messageDriven (h : BitBegun octets n 0 u) (hne : octets ≠ []) (hlength : octets.length ≤ 16)
    (hx : u.transmitter = some { octets := octets, startedAt := n }) (hf : u.follows = true) (ho : u.others = .recessive)
    (hread : u.readTo = n) : MessageRead octets n (u.driveTo (n + 100 * octets.length)) := by
  have hpos := List.length_pos_of_ne_nil hne
  have hbits := h.drive (m := 10 * octets.length - 1) (by omega) hlength hx hf ho
  have hdrive := (LineUnit.foldl_settle ((List.range' 1 (10 * octets.length - 1)).map fun j => n + 10 * j) u).1
  have hlast : List.range' 1 (10 * octets.length) = List.range' 1 (10 * octets.length - 1) ++ [10 * octets.length] := by
    have hconcat := List.range'_1_concat (s := 1) (n := 10 * octets.length - 1)
    rwa [show 10 * octets.length - 1 + 1 = 10 * octets.length by omega,
      show 1 + (10 * octets.length - 1) = 10 * octets.length by omega] at hconcat
  have hend := (hbits.messageRead (by omega)).settle_end (hdrive.transmitter.trans hx) (hdrive.follows.trans hf)
    (hdrive.others.trans ho)
  rw [LineUnit.driveTo, LineUnit.bitEdges_after hx hread, hlast, List.map_append, List.foldl_append]
  exact hend.told _ _

/-- Driven by the own transmitter alone, on a line that follows it, a message is read whole (R80, R85). -/
theorem LineUnit.messageRead_own (hne : octets ≠ []) (hlength : octets.length ≤ 16) (hactive : u.active = false)
    (hgap : u.awaitingGap = false) (hlevel : u.level = .recessive) (hothers : u.others = .recessive)
    (hf : u.follows = true) (hcoming : u.coming = []) (hread : u.readTo ≤ n) :
    MessageRead octets n ((u.begin { octets := octets, startedAt := n }).followToEnd []) := by
  have hbegin : u.begin { octets := octets, startedAt := n } =
      LineUnit.begun n { u with transmitter := some { octets := octets, startedAt := n }, readTo := n } := by
    rw [LineUnit.begin_follows hne hf hlevel hactive hgap, max_eq_right hread]
    rfl
  have hends : Sending.endsAt { octets := octets, startedAt := n } = n + 100 * octets.length := by
    simp only [Sending.endsAt, Config.bitTime]
    omega
  have hfirst := BitBegun.first (n := n) hne hlength
    { u with transmitter := some { octets := octets, startedAt := n }, readTo := n }
  have hdriven := hfirst.messageDriven hne hlength rfl hf hothers rfl
  rw [← hbegin, ← hends] at hdriven
  have htransmitter : (u.begin { octets := octets, startedAt := n }).transmitter =
      some { octets := octets, startedAt := n } := by rw [hbegin]; rfl
  have hnothing : (u.begin { octets := octets, startedAt := n }).coming = [] := by rw [hbegin]; exact hcoming
  rw [LineUnit.followToEnd, List.append_nil, LineUnit.follow_none hnothing, htransmitter]
  exact hdriven

end

end Sys2Proof.Machine
end

section
/-!
The fields of a valid message read back from its octets (R84, R88, R92), and O25.
-/

namespace Sys2Proof.Machine

/-! ### The fields of each kind (R88, R92) -/

section
variable {x y hi lo : Byte}

theorem bitOf_lt {n k : Nat} (h : n % 2 ^ (k + 1) < 2 ^ k) : bitOf n k = false := by
  have hsplit : n / 2 ^ k % 2 = 0 := by
    rw [← Nat.mod_mul_right_div_self, ← pow_succ]
    exact Nat.div_eq_of_lt h
  simp [bitOf, hsplit]

theorem ReleaseReason.tag_fields (r : ReleaseReason) (id : Fin 16) :
    (octet (r.code * 16 + id.val)).toNat / 16 = r.code ∧ Fin.ofNat 16 (octet (r.code * 16 + id.val)).toNat = id := by
  have hid := id.isLt
  have hcode : r.code ≤ 6 := by cases r <;> decide
  rw [octet_toNat]
  refine ⟨by omega, Fin.ext ?_⟩
  rw [Fin.val_ofNat]
  omega

theorem readRelease_sent {r : Release} (hdraw : drawField r.draw) (hstamp : stampValue r.stamp) :
    readRelease ([x, y, octet (r.reason.code * 16 + r.tripId.val)] ++ (signed16 r.draw ++ word16 r.stamp) ++ [hi, lo]) =
      some (.release r) := by
  obtain ⟨hcode, hid⟩ := r.reason.tag_fields r.tripId
  obtain ⟨hlow, hhigh⟩ := hdraw
  have hread := int16_signed16 r.draw ⟨by omega, hhigh⟩
  have hring : r.stamp % 65536 = r.stamp := Nat.mod_eq_of_lt (Nat.lt_succ_of_le hstamp)
  have hleast : r.draw ≠ -32768 := by omega
  simp [readRelease, signed16, word16, hcode, reasonOfCode_code, hread, number16_word16, hring, hleast, hid,
    -Fin.ofNat_eq_cast]

theorem Claim.tag_fields (k : TripKind) (v : SpeedStep) (id : Fin 16) :
    bitOf (octet (k.bit * 128 + v.code * 16 + id.val)).toNat 6 = false ∧
      (if bitOf (octet (k.bit * 128 + v.code * 16 + id.val)).toNat 7 then TripKind.wake else .run) = k ∧
      (octet (k.bit * 128 + v.code * 16 + id.val)).toNat / 16 % 4 = v.code ∧
      Fin.ofNat 16 (octet (k.bit * 128 + v.code * 16 + id.val)).toNat = id := by
  have hid := id.isLt
  have hcode : v.code ≤ 3 := by cases v <;> decide
  have hbit : k.bit ≤ 1 := by cases k <;> decide
  have htag : (octet (k.bit * 128 + v.code * 16 + id.val)).toNat = k.bit * 128 + v.code * 16 + id.val := by
    rw [octet_toNat]
    omega
  have hkind : bitOf (k.bit * 128 + v.code * 16 + id.val) 7 = (k.bit == 1) := by
    rw [bitOf, show (k.bit * 128 + v.code * 16 + id.val) / 2 ^ 7 % 2 = k.bit by omega]
  rw [htag, hkind]
  refine ⟨bitOf_lt (by omega), by cases k <;> rfl, by omega, Fin.ext ?_⟩
  rw [Fin.val_ofNat]
  omega

theorem readClaim_sent {c : Claim} (hdraw : drawField c.draw) (hstart : c.start ≤ 32767) (hpos : 1 ≤ c.stamp)
    (hstamp : stampValue c.stamp) (hdmax : c.dmax ≤ 32767) :
    readClaim c.cls ([x, y, octet (c.kind.bit * 128 + c.speed.code * 16 + c.tripId.val)] ++
      (signed16 c.draw ++ word16 c.start ++ word16 c.stamp ++ word16 c.dmax) ++ [hi, lo]) = some (.claim c) := by
  obtain ⟨hspare, hkind, hspeed, hid⟩ := Claim.tag_fields c.kind c.speed c.tripId
  obtain ⟨hlow, hhigh⟩ := hdraw
  have hread := int16_signed16 c.draw ⟨by omega, hhigh⟩
  have hring : c.stamp % 65536 = c.stamp := Nat.mod_eq_of_lt (Nat.lt_succ_of_le hstamp)
  have hstart' : c.start % 65536 = c.start := Nat.mod_eq_of_lt (by omega)
  have hdmax' : c.dmax % 65536 = c.dmax := Nat.mod_eq_of_lt (by omega)
  have hleast : c.draw ≠ -32768 := by omega
  have hpos' : c.stamp ≠ 0 := by omega
  simp [readClaim, signed16, word16, hspare, hkind, hspeed, hid, hread, number16_word16, hring, hstart', hdmax', hleast,
    hpos', speedOfCode_code, hstart, hdmax, -Fin.ofNat_eq_cast]

theorem Presence.flags_fields (p : Presence) :
    (octet p.flags).toNat < 16 ∧ bitOf (octet p.flags).toNat 0 = p.serviceSelected ∧
      bitOf (octet p.flags).toNat 1 = p.lockout ∧ bitOf (octet p.flags).toNat 2 = p.shedPending ∧
      bitOf (octet p.flags).toNat 3 = p.demand.isSome := by
  rw [Presence.flags]
  generalize p.serviceSelected = a, p.lockout = b, p.shedPending = c, p.demand.isSome = d
  revert a b c d
  decide

theorem readPresence_sent {p : Presence} (hdriving : p.summary.driving = true) (hdraw : drawField p.committed)
    (hdmax : p.dmax ≤ 32767) (hgmax : p.gmax ≤ 32767) (hstamp : stampValue p.stamp)
    (hdemand : ∀ d, p.demand = some d → drawField d) :
    readPresence ([x, y, octet p.summary.code] ++ (octet p.flags :: signed16 p.committed ++ word16 p.dmax ++
      word16 p.gmax ++ word16 p.stamp ++ signed16 (p.demand.getD 0)) ++ [hi, lo]) = some (.presence p) := by
  obtain ⟨hflags, hservice, hlockout, hshed, hown⟩ := p.flags_fields
  obtain ⟨hlow, hhigh⟩ := hdraw
  have hsummary : summaryOfCode (octet p.summary.code).toNat = some p.summary := by
    have hcode : (octet p.summary.code).toNat = p.summary.code := by cases p.summary <;> rfl
    rw [hcode, summaryOfCode_code p.summary hdriving]
  have hread := int16_signed16 p.committed ⟨by omega, hhigh⟩
  have hring : p.stamp % 65536 = p.stamp := Nat.mod_eq_of_lt (Nat.lt_succ_of_le hstamp)
  have hdmax' : p.dmax % 65536 = p.dmax := Nat.mod_eq_of_lt (by omega)
  have hgmax' : p.gmax % 65536 = p.gmax := Nat.mod_eq_of_lt (by omega)
  have hleast : p.committed ≠ -32768 := by omega
  have hdemands : drawField (p.demand.getD 0) := by
    cases hd : p.demand with
    | none => exact ⟨by decide, by decide⟩
    | some d => exact hdemand d hd
  obtain ⟨hdlow, hdhigh⟩ := hdemands
  have hdread := int16_signed16 (p.demand.getD 0) ⟨by omega, hdhigh⟩
  have hdleast : p.demand.getD 0 ≠ -32768 := by omega
  have hback : (if p.demand.isSome then some (p.demand.getD 0) else none) = p.demand := by cases p.demand <;> rfl
  simp [readPresence, signed16, word16, hsummary, hflags, hservice, hlockout, hshed, hown, hread, number16_word16, hring,
    hdmax', hgmax', hleast, hdread, hdleast, hback, hdmax, hgmax]

end

/-! ### The message (R88, R92) -/

section
variable {m : Message}

theorem readMessage_body {header station : Byte} {rest : List Byte} {b : Body} (heven : header.toNat % 2 = 0)
    (hfirst : 1 ≤ station.toNat) (hlast : station.toNat ≤ 62)
    (hbody : readBody header (header :: station :: rest) = some b) :
    readMessage (header :: station :: rest) = some { station := station.toNat, body := b } := by
  have hread : readMessage (header :: station :: rest) = if header.toNat % 2 ≠ 0 then none
      else if station.toNat = 0 ∨ 62 < station.toNat then none
      else (readBody header (header :: station :: rest)).map fun b => { station := station.toNat, body := b } := rfl
  have hstation : ¬(station.toNat = 0 ∨ 62 < station.toNat) := by omega
  rw [hread, if_neg (not_not.mpr heven), if_neg hstation, hbody, Option.map_some]

/-- The header of a valid message: kind and class, and the reserved bit clear (R88). -/
def headerOf (m : Message) : Byte := octet (m.body.kind.code * 16 + m.body.cls * 2)

theorem headerOf_toNat (h : m.body.valid) : (headerOf m).toNat = m.body.kind.code * 16 + m.body.cls * 2 := by
  rw [headerOf, octet_toNat]
  cases hb : m.body with
  | release r => rfl
  | claim c =>
    rw [hb] at h
    obtain ⟨hfirst, hlast, -⟩ := h
    simp only [Body.kind, Body.cls, MessageKind.code]
    omega
  | presence p => rfl

theorem encodeMessage_eq (m : Message) : ∃ rest, encodeMessage m = headerOf m :: octet m.station :: rest :=
  ⟨_, rfl⟩

theorem readBody_sent (h : m.body.valid) : readBody (headerOf m) (encodeMessage m) = some m.body := by
  have hheader := headerOf_toNat h
  have hword : word16 (crcOf (messageOctets m)).toNat =
    [octet ((crcOf (messageOctets m)).toNat / 256), octet (crcOf (messageOctets m)).toNat] := rfl
  cases hb : m.body with
  | release r =>
    rw [hb] at h hheader
    obtain ⟨hdraw, hstamp⟩ := h
    have hcode : (headerOf m).toNat / 16 = 1 := by simp [hheader, Body.kind, Body.cls, MessageKind.code]
    have hcls : (headerOf m).toNat / 2 % 8 = 0 := by simp [hheader, Body.kind, Body.cls, MessageKind.code]
    have hread : readBody (headerOf m) (encodeMessage m) = readRelease (encodeMessage m) := by simp [readBody, hcode, hcls]
    rw [hread, encodeMessage, withCrc, hword, messageOctets, hb]
    exact readRelease_sent hdraw hstamp
  | claim c =>
    rw [hb] at h hheader
    obtain ⟨hfirst, hlast, hdraw, hstart, hpos, hstamp, hdmax⟩ := h
    simp only [Body.kind, Body.cls, MessageKind.code] at hheader
    have hcode : (headerOf m).toNat / 16 = 2 := by omega
    have hcls : (headerOf m).toNat / 2 % 8 = c.cls := by omega
    have hread : readBody (headerOf m) (encodeMessage m) = readClaim c.cls (encodeMessage m) := by
      simp [readBody, hcode, hcls, hfirst, hlast]
    rw [hread, encodeMessage, withCrc, hword, messageOctets, hb]
    exact readClaim_sent hdraw hstart hpos hstamp hdmax
  | presence p =>
    rw [hb] at h hheader
    obtain ⟨hdriving, hdraw, hdmax, hgmax, hstamp, hdemand⟩ := h
    have hcode : (headerOf m).toNat / 16 = 3 := by simp [hheader, Body.kind, Body.cls, MessageKind.code]
    have hcls : (headerOf m).toNat / 2 % 8 = 6 := by simp [hheader, Body.kind, Body.cls, MessageKind.code]
    have hread : readBody (headerOf m) (encodeMessage m) = readPresence (encodeMessage m) := by
      simp [readBody, hcode, hcls]
    rw [hread, encodeMessage, withCrc, hword, messageOctets, hb]
    exact readPresence_sent hdriving hdraw hdmax hgmax hstamp hdemand

/-- Every field of a valid message comes back from its octets (R88, R92). -/
theorem readMessage_encodeMessage (h : m.valid) : readMessage (encodeMessage m) = some m := by
  obtain ⟨hfirst, hlast, hbody⟩ := h
  obtain ⟨rest, hencode⟩ := encodeMessage_eq m
  have hsent := readBody_sent hbody
  have hstation : (octet m.station).toNat = m.station := by
    rw [octet_toNat]
    omega
  rw [hencode] at hsent
  rw [hencode, readMessage_body (by rw [headerOf_toNat hbody]; omega) (by omega) (by omega) hsent, hstation]

/-- The octets of a message of each kind, its CRC among them (R88). -/
def MessageKind.sentLength : MessageKind → Nat
  | .release => 9
  | .claim => 13
  | .presence => 16

theorem encodeMessage_length (m : Message) : (encodeMessage m).length = m.body.kind.sentLength := by
  cases hb : m.body <;> simp [encodeMessage, withCrc, messageOctets, hb, signed16, word16, Body.kind, MessageKind.sentLength]

theorem headerOf_kind (h : m.body.valid) : (headerOf m).toNat / 16 = m.body.kind.code := by
  have hheader := headerOf_toNat h
  have hcls : m.body.cls ≤ 7 := by
    cases hb : m.body with
    | release r => exact Nat.zero_le _
    | claim c =>
      rw [hb] at h
      obtain ⟨-, hlast, -⟩ := h
      exact hlast.trans (by decide)
    | presence p => exact Nat.le_succ 6
  omega

theorem encodeMessage_lengthRight {u : LineUnit} (h : m.body.valid) (hoctets : u.octets = encodeMessage m)
    (hcount : u.octetCount = (encodeMessage m).length) : LengthRight u := by
  obtain ⟨rest, hencode⟩ := encodeMessage_eq m
  refine ⟨headerOf m, octet m.station :: rest, hoctets.trans hencode, ?_⟩
  rw [headerOf_kind h, hcount, encodeMessage_length]
  cases m.body.kind with
  | release => exact .inl ⟨rfl, rfl⟩
  | claim => exact .inr (.inl ⟨rfl, rfl⟩)
  | presence => exact .inr (.inr ⟨rfl, rfl⟩)

theorem encodeMessage_crcRight (m : Message) : CrcRight (encodeMessage m) :=
  ⟨messageOctets m, _, _, rfl, (word16_eq_iff (crcOf (messageOctets m)).isLt _ _).mp rfl⟩

/-- An activity that holds a valid message, whole and unmarked, is judged to be that message (R92). -/
theorem judgeActivity_sent {u : LineUnit} (h : m.valid) (hoctets : u.octets = encodeMessage m)
    (hcount : u.octetCount = (encodeMessage m).length) (hframe : u.frameMark = false) (hlong : u.longMark = false) :
    judgeActivity u = .ok m := by
  obtain ⟨-, -, hbody⟩ := id h
  have hlength := encodeMessage_lengthRight hbody hoctets hcount
  rw [judgeActivity_read hlong hframe hlength (by rw [hoctets]; exact encodeMessage_crcRight m), hoctets,
    readMessage_encodeMessage h]
  rfl

end

/-- Settles O25: every bit is read as it was sent, whoever drives it, the end is recognised with all the octets there, and the fields
come back from them. -/
theorem lineMessageRoundTrip : Obligations.LineMessageRoundTrip := by
  unfold Obligations.LineMessageRoundTrip
  intro m u n hvalid hactive hgap hlevel hothers hidle hfollows hcoming hread
  have hne := encodeMessage_ne_nil m
  have hlength : (encodeMessage m).length ≤ 16 := by
    rw [encodeMessage_length]
    cases m.body.kind <;> decide
  refine ⟨?_, ?_⟩
  · obtain ⟨reference, v, hrecognised, hoctets, hcount, hframe, hlong, hfrom, hto⟩ :=
      (LineUnit.messageRead_others hne hlength hactive hgap hlevel hidle hcoming hread).recognised
    exact ⟨reference, v, hrecognised, hoctets, hcount, hframe, hlong,
      judgeActivity_sent hvalid hoctets hcount hframe hlong, hfrom, hto⟩
  · obtain ⟨reference, v, hrecognised, hoctets, hcount, hframe, hlong, hfrom, hto⟩ :=
      (LineUnit.messageRead_own hne hlength hactive hgap hlevel hothers hfollows hcoming hread).recognised
    exact ⟨reference, v, hrecognised, by simp [completesOwn, hoctets, hcount, hframe, hlong], hfrom, hto⟩

end Sys2Proof.Machine
end

section
/-!
The attempt in hand through every operation but a choice and a slot (R102, R107): it is over, or it goes on in its round and, while a
CLAIM waits, the RELEASE slot is as it was.
-/

namespace Sys2Proof.Machine

/-! ### No attempt begun -/

/-- The attempt goes on, in the same round; while a CLAIM waits no RELEASE has been posted (R102, R112). -/
structure AttemptGoesOn (c d : ContentionUnit) : Prop where
  attempt : d.attempt = c.attempt
  spoken : d.spoken = c.spoken
  releaseSlot : c.attempt.isWaiting .claim = true → d.releaseSlot = c.releaseSlot

/-- No attempt has been begun: the one in hand is over or goes on. -/
def NoneBegun (s t : State) : Prop := t.con.attempt = .none ∨ AttemptGoesOn s.con t.con

theorem NoneBegun.of_con {s t : State} (h : t.con = s.con) : NoneBegun s t := .inr (h ▸ ⟨rfl, rfl, fun _ => rfl⟩)

theorem NoneBegun.refl (s : State) : NoneBegun s s := .of_con rfl

theorem NoneBegun.over {s t : State} (h : t.con.attempt = .none) : NoneBegun s t := .inl h

theorem NoneBegun.trans {s t u : State} (h : NoneBegun s t) (g : NoneBegun t u) : NoneBegun s u := by
  rcases g with g | ⟨ga, gs, gr⟩
  · exact .inl g
  rcases h with h | ⟨ha, hs, hr⟩
  · exact .inl (ga.trans h)
  · exact .inr ⟨ga.trans ha, gs.trans hs, fun hw => (gr (by rwa [ha])).trans (hr hw)⟩

/-- What an operation leaves alone in the contention unit it leaves to the attempt. -/
theorem NoneBegun.con {s t u : State} (h : NoneBegun s t) (hc : u.con = t.con) : NoneBegun s u := h.trans (.of_con hc)

theorem NoneBegun.withSeq {s t : State} (h : NoneBegun s t) (q : Sequencer) : NoneBegun s { t with seq := q } := h.con rfl

theorem NoneBegun.withAdm {s t : State} (h : NoneBegun s t) (a : AdmissionUnit) : NoneBegun s { t with adm := a } := h.con rfl

theorem NoneBegun.passTo {s t : State} (h : NoneBegun s t) (n : Nat) : NoneBegun s (passTo n t) := h.con (by simp)

/-! ### Operations that end the attempt -/

theorem completeOwn_over (b : Body) (s : State) : (completeOwn b s).con.attempt = .none := by
  unfold completeOwn
  dsimp only
  rcases noteStart_attempt b _ with ha | ha
  · rw [ha]
    split
    · exact completeRelease_attempt ..
    · exact completeClaim_attempt ..
    · rfl
  · exact ha

theorem endSession_attempt (s : State) : (endSession s).con.attempt = .none := by
  simp [endSession, leaveService_attempt]

section

variable {s u : State} (h : NoneBegun s u)
include h

/-! ### The slots, the attempt and the own trip record -/

theorem NoneBegun.markPresence : NoneBegun s (markPresence u) := by
  refine h.trans ?_
  unfold Machine.markPresence
  split
  · exact .inr ⟨rfl, rfl, fun _ => rfl⟩
  · exact .refl u

theorem NoneBegun.postClaim : NoneBegun s (postClaim u) := by
  refine h.trans ?_
  unfold Machine.postClaim
  split
  · exact .inr ⟨rfl, rfl, fun _ => rfl⟩
  · exact .refl u

theorem NoneBegun.abandonAttempt : NoneBegun s (abandonAttempt u) := by
  refine h.trans ?_
  rcases abandonAttempt_con u with hc | hc
  · exact .of_con hc
  · exact .over (by rw [hc]; rfl)

/-- A RELEASE posted ends the attempt of a CLAIM that waits (R112). -/
theorem NoneBegun.postRelease (r : Release) : NoneBegun s (postRelease r u) := by
  refine h.trans ?_
  rcases postRelease_attempt r u with ha | ha
  · refine .inr ⟨ha, by simp, fun hw => ?_⟩
    have hn := (postRelease_slot r u).2
    rw [ha, hw] at hn
    cases hn
  · exact .over ha

theorem NoneBegun.withdrawClaim : NoneBegun s (withdrawClaim u) := by
  refine h.trans ?_
  unfold Machine.withdrawClaim
  split
  · exact .inr ⟨rfl, rfl, fun _ => rfl⟩
  · refine NoneBegun.trans (t := if u.con.attempt.isWaiting .claim then Machine.abandonAttempt u else u) ?_
      (.inr ⟨rfl, rfl, fun _ => rfl⟩)
    split
    · exact (NoneBegun.refl u).abandonAttempt
    · exact .refl u

theorem NoneBegun.goTo (st : SeqState) : NoneBegun s (goTo st u) := h.con (by simp)

theorem NoneBegun.endTrip : NoneBegun s (endTrip u) := h.con (by simp)

theorem NoneBegun.answerHeld (a : Answer) : NoneBegun s (answerHeld a u) := h.con (by simp)

theorem NoneBegun.settleReply : NoneBegun s (settleReply u) := h.con (by simp)

theorem NoneBegun.offerObservation (o : Observation) : NoneBegun s (offerObservation o u) := h.con (by simp)

/-! ### State changes -/

theorem NoneBegun.enterServiceIdle : NoneBegun s (enterServiceIdle u) := by
  refine NoneBegun.markPresence (h.con ?_)
  simp

theorem NoneBegun.enterParked : NoneBegun s (enterParked u) := (h.goTo _).markPresence

theorem NoneBegun.enterLanded : NoneBegun s (enterLanded u) := by
  refine NoneBegun.markPresence (h.con ?_)
  simp

theorem NoneBegun.enterEvacWait : NoneBegun s (enterEvacWait u) := (h.goTo _).markPresence

theorem NoneBegun.enterServiceWait : NoneBegun s (enterServiceWait u) := (h.goTo _).markPresence

theorem NoneBegun.returnToOrigin (o : Origin) : NoneBegun s (returnToOrigin o u) := by
  cases o
  case serviceIdle => exact h.enterServiceIdle
  case parked => exact h.enterParked
  all_goals exact h.enterEvacWait

theorem NoneBegun.postShed (id : Fin 16) : NoneBegun s (postShed id u) := by
  refine NoneBegun.markPresence ((h.postRelease (shedRelease id)).con ?_)
  rfl

theorem NoneBegun.setLockout (b : Bool) : NoneBegun s (setLockout b u) := by
  unfold Machine.setLockout
  split
  · exact h
  · refine NoneBegun.markPresence (h.con ?_)
    rfl

theorem NoneBegun.lockoutBy (p : Position) : NoneBegun s (lockoutBy p u) := by
  cases p
  · exact h.setLockout false
  · exact h
  · exact h.setLockout true

theorem NoneBegun.createEvacWake (o : Origin) : NoneBegun s (createEvacWake o u) := by
  refine NoneBegun.postClaim (h.con ?_)
  rfl

theorem NoneBegun.actOnPosition : NoneBegun s (actOnPosition u) := by
  unfold Machine.actOnPosition
  dsimp only
  split
  · exact (h.createEvacWake _).goTo _
  · exact h.goTo _

theorem NoneBegun.enterAssess : NoneBegun s (enterAssess u) := by
  have ha : NoneBegun s (Machine.markPresence (Machine.goTo .assess u)) := (h.goTo _).markPresence
  unfold Machine.enterAssess
  dsimp only
  split
  · exact ha.actOnPosition
  · exact ha

/-! ### Shedding and the roster -/

theorem NoneBegun.oweShed : NoneBegun s (oweShed u) := by
  refine NoneBegun.withdrawClaim (h.con ?_)
  rfl

theorem NoneBegun.shedCar : NoneBegun s (shedCar u) := by
  unfold Machine.shedCar
  split
  · refine NoneBegun.enterParked (NoneBegun.postShed (h.con ?_) _)
    rfl
  · split
    · exact h.oweShed
    · exact (h.withdrawClaim.endTrip.postShed _).enterParked
  · exact (h.goTo _).markPresence
  · exact h.postShed _
  · exact h.postShed _
  · exact h

theorem NoneBegun.shedTest : NoneBegun s (shedTest u) := by
  unfold Machine.shedTest
  split
  · exact h
  · dsimp only
    split
    · refine NoneBegun.shedCar (h.con ?_)
      simp
    · exact h.con (by simp)

theorem NoneBegun.changeRoster (r : Roster) : NoneBegun s (changeRoster r u) := by
  rcases changeRoster_cases r u with ⟨-, he⟩ | ⟨-, he⟩ <;> rw [he]
  · exact h.con rfl
  · refine NoneBegun.shedTest (h.con ?_)
    simp

/-! ### Notices, starts and the evaluation -/

theorem NoneBegun.noticeAfter (before : SupplyMonitor) : NoneBegun s (noticeAfter before u) := by
  unfold Machine.noticeAfter
  split
  · exact h.abandonAttempt
  · exact h

theorem NoneBegun.noteStart (b : Body) : NoneBegun s (noteStart b u) := by
  unfold Machine.noteStart
  split
  · split
    · refine NoneBegun.noticeAfter (h.con ?_) _
      simp
    · exact h
  · exact h

theorem NoneBegun.evaluate : NoneBegun s (evaluate u) := by
  have hcon := (evaluate_leaves u).con
  exact h.trans (.inr (by rw [hcon]; exact ⟨rfl, rfl, fun _ => rfl⟩))

theorem NoneBegun.reportActivity : NoneBegun s (reportActivity u) := by
  refine NoneBegun.abandonAttempt (h.trans ?_)
  exact .inr ⟨rfl, rfl, fun _ => rfl⟩

theorem NoneBegun.setLine (v : LineUnit) : NoneBegun s (setLine v u) := by
  unfold Machine.setLine
  split
  · refine NoneBegun.reportActivity (h.con ?_)
    rfl
  · exact h.con rfl

/-! ### The end of the own attempt -/

theorem NoneBegun.failAttempt : NoneBegun s (failAttempt u) := by
  refine h.trans ?_
  unfold Machine.failAttempt
  split
  · dsimp only
    split
    · exact .over (enterFallback_attempt _)
    · exact .over (failSlot_attempt ..)
  · exact .refl u

theorem NoneBegun.endCancelled (completed : Bool) (x : Trip) : NoneBegun s (endCancelled completed x u) := by
  unfold Machine.endCancelled
  dsimp only
  refine NoneBegun.answerHeld ?_ _
  split
  · refine NoneBegun.enterParked (NoneBegun.postShed (h.endTrip.con ?_) _)
    rfl
  · split
    · exact (h.endTrip.postRelease _).returnToOrigin _
    · exact h.endTrip.returnToOrigin _

/-! ### The session and the supply -/

theorem NoneBegun.enterJoining : NoneBegun s (enterJoining u) := by
  refine NoneBegun.markPresence (NoneBegun.changeRoster (h.trans (.inr ?_)) _)
  exact ⟨by simp, by simp, by simp⟩

theorem NoneBegun.enterAwaitSupply (window : Nat) : NoneBegun s (enterAwaitSupply window u) := by
  unfold Machine.enterAwaitSupply
  dsimp only
  split
  · refine NoneBegun.enterJoining (h.con ?_)
    simp
  · exact h.con (by simp)

theorem NoneBegun.enterNoSupply : NoneBegun s (enterNoSupply u) := by
  unfold Machine.enterNoSupply
  dsimp only
  split
  · refine NoneBegun.enterJoining (h.con ?_)
    simp
  · exact h.con (by simp)

omit h in
theorem NoneBegun.onSupplyLoss : NoneBegun s (onSupplyLoss u) := by
  have hleft : NoneBegun s (leaveService u) := .over (leaveService_attempt u)
  unfold Machine.onSupplyLoss
  refine NoneBegun.settleReply (NoneBegun.enterAwaitSupply (hleft.con ?_) _)
  rfl

theorem NoneBegun.supplyEdge (before : SupplyMonitor) : NoneBegun s (supplyEdge before u) := by
  unfold Machine.supplyEdge
  split
  · unfold onSupplyGood
    split
    · exact h.enterJoining
    · exact h.enterJoining
    · exact h
  · split
    · exact .onSupplyLoss
    · exact h

theorem NoneBegun.becomeClass (c : FreqClass) : NoneBegun s (becomeClass c u) := by
  refine NoneBegun.supplyEdge (NoneBegun.noticeAfter (h.con ?_) _) _
  rfl

theorem NoneBegun.becomeAbsent : NoneBegun s (becomeAbsent u) := by
  refine NoneBegun.becomeClass (h.con ?_) _
  rfl

theorem NoneBegun.reformCap : NoneBegun s (reformCap u) := by
  unfold Machine.reformCap
  dsimp only
  split
  · exact h
  · split
    · refine NoneBegun.shedTest (NoneBegun.noticeAfter (h.con ?_) _)
      rfl
    · refine NoneBegun.noticeAfter (h.con ?_) _
      rfl

theorem NoneBegun.onTakeover : NoneBegun s (onTakeover u) := by
  unfold Machine.onTakeover
  split
  · exact h.con rfl
  · dsimp only
    split
    · exact .over (enterIsolated_attempt _)
    · refine NoneBegun.enterAwaitSupply (h.con ?_) _
      rfl
  · exact h

theorem NoneBegun.onRetransfer : NoneBegun s (onRetransfer u) := by
  unfold Machine.onRetransfer
  dsimp only
  split
  · exact h.con rfl
  · exact h.con rfl
  · exact .over (endSession_attempt (supplyAtSessionEnd u))

/-! ### The line -/

theorem NoneBegun.judgeAndDeliver (v : LineUnit) : NoneBegun s (judgeAndDeliver v u) := by
  unfold Machine.judgeAndDeliver
  split
  · exact h
  · split
    · exact h.con (by simp)
    · unfold deliverMessage
      refine NoneBegun.offerObservation (NoneBegun.noteStart ?_ _) _
      split
      · unfold takeDuplicate
        dsimp only
        split
        · exact .over (enterIsolated_attempt _)
        · exact h.con (by simp)
      · exact h.changeRoster _

theorem NoneBegun.settleActivity (v : LineUnit) : NoneBegun s (settleActivity v u) := by
  unfold Machine.settleActivity
  split
  · split
    · exact .over (completeOwn_over ..)
    · exact h.failAttempt.judgeAndDeliver v
  · exact h.judgeAndDeliver v

theorem NoneBegun.failAtBit (x : Sending) (k : Nat) : NoneBegun s (failAtBit x k u) := by
  refine NoneBegun.failAttempt (h.con ?_)
  rfl

end

end Sys2Proof.Machine
end
section
/-!
The attempt in hand through the commands: O19 and O20. The commands that begin an attempt are the reference points (R100, R107) and the
slot (R109); the others only end it or let it go on.
-/

namespace Sys2Proof.Machine

/-! ### The two laws of the attempt together (R102, R107) -/

/-- The outcome, where it is a next state, has this property. -/
def NextMeets (p : State → Prop) (o : Host.Outcome State Fault Refusal) : Prop := ∀ t, o = .next t → p t

theorem NextMeets.next {p : State → Prop} {t : State} (h : p t) : NextMeets p (.next t) := by
  rintro _ ⟨⟩
  exact h

/-- Whichever of the two laws holds before holds after. -/
structure OrderKept (s t : State) : Prop where
  releaseFirst : ReleaseFirst s → ReleaseFirst t
  spokenWaits : SpokenWaits s → SpokenWaits t

theorem OrderKept.trans {s t u : State} (h : OrderKept s t) (g : OrderKept t u) : OrderKept s u :=
  ⟨g.releaseFirst ∘ h.releaseFirst, g.spokenWaits ∘ h.spokenWaits⟩

/-- An attempt that no operation began waits and speaks as it did. -/
theorem NoneBegun.ordered {s t : State} (h : NoneBegun s t) : OrderKept s t := by
  rcases h with h | ⟨ha, hs, hr⟩
  · exact ⟨fun _ hw => (by rw [h] at hw; cases hw), fun _ _ => h⟩
  · exact ⟨fun g hw => (hr (ha ▸ hw)).trans (g (ha ▸ hw)), fun g hsp => ha.trans (g (hs ▸ hsp))⟩

theorem NoneBegun.next {s t : State} (h : NoneBegun s t) : NextMeets (OrderKept s) (.next t) := .next h.ordered

theorem noneBegun_same (s : State) : NextMeets (OrderKept s) (.next s) := (NoneBegun.refl s).next

/-! ### The choice and the slot (R107, R109) -/

/-- A CLAIM is chosen only with the RELEASE slot empty, and nothing once the station has spoken. -/
theorem chooseSlot_ordered (n : Nat) (offer : Option (Option SpeedStep × StepFigures)) (s : State) :
    OrderKept s (chooseSlot n offer s) := by
  rcases chooseSlot_cases n offer s with he | ⟨hm, hchosen⟩
  · exact (NoneBegun.of_con (by rw [he])).ordered
  obtain ⟨-, hspoken, -, -⟩ := (mayChoose_iff s).mp hm
  refine ⟨fun _ hw => ?_, fun _ hs => ?_⟩
  · rcases hchosen with ⟨r, -, he⟩ | ⟨hr, p, o, x, -, -, -, he⟩ | ⟨-, hdue, he⟩
    · rw [he] at hw
      cases hw
    · rw [he]
      exact hr
    · rw [he, choosePresence_due n hdue] at hw
      cases hw
  · simp [hspoken] at hs

theorem referencePoint_ordered (n : Nat) (s : State) : OrderKept s (referencePoint n s) := by
  have hstarted : NoneBegun s (atReference n s) := .inr ⟨rfl, rfl, fun _ => rfl⟩
  rw [referencePoint_eq]
  exact hstarted.evaluate.ordered.trans (chooseSlot_ordered ..)

theorem endActivity_ordered (n : Nat) (u : LineUnit) (s : State) : OrderKept s (endActivity n u s) := by
  have hquiet : NoneBegun s { passTo (n + Config.baseGap) s with line := u.quiet } := .of_con rfl
  exact (hquiet.settleActivity u).ordered.trans (referencePoint_ordered ..)

theorem setLine_ordered (u : LineUnit) (s : State) : OrderKept s (setLine u s) := ((NoneBegun.refl s).setLine u).ordered

theorem openReceiver_noneBegun (u : LineUnit) (s : State) : NoneBegun s (openReceiver u s) :=
  .inr ⟨rfl, rfl, fun _ => rfl⟩

/-- The round that closes lets the station speak again (R101). -/
theorem execRoundClose_ordered (s : State) : NextMeets (OrderKept s) (execRoundClose s) := by
  unfold execRoundClose
  split
  · refine .next (OrderKept.trans ⟨fun h hw => ?_, fun _ hs => ?_⟩ (referencePoint_ordered ..))
    · simpa using h (by simpa using hw)
    · cases hs
  · exact noneBegun_same s

/-- A message that begins waits no longer, and its station had not spoken (R109). -/
theorem slotTaken_ordered {s : State} {b c : Body} (hb : s.con.attempt = .waiting b) (n : Nat) :
    OrderKept s { passTo n s with con := { s.con with attempt := .sending c, slotDeadline := none } } := by
  refine ⟨fun _ hw => (by cases hw), fun h hs => ?_⟩
  have hnone := h hs
  rw [hb] at hnone
  cases hnone

theorem execSlotExpiry_ordered (s : State) : NextMeets (OrderKept s) (execSlotExpiry s) := by
  unfold execSlotExpiry
  split
  · rename_i b deadline hb _
    dsimp only
    split
    · exact .next ((slotTaken_ordered hb deadline).trans (setLine_ordered ..))
    · exact (NoneBegun.of_con (s := s) (t := passTo deadline s) rfl).abandonAttempt.next
  · exact noneBegun_same s

/-! ### The requests of the car link -/

theorem NoneBegun.octetsArrive {s u : State} (h : NoneBegun s u) : NoneBegun s (octetsArrive u) := by
  cases hr : linkReady u
  · rw [octetsArrive_lost u hr]
    exact h.con (by simp)
  · rw [octetsArrive_ready u hr]
    exact h.con rfl

theorem NoneBegun.discardFrame {s u : State} (h : NoneBegun s u) : NoneBegun s (discardFrame u) := by
  cases hr : linkReady u
  · rw [discardFrame_lost u hr]
    exact h.con (by simp)
  · rw [discardFrame_ready u hr]
    exact h.con rfl

theorem NoneBegun.linkQuiet {s u : State} (h : NoneBegun s u) : NoneBegun s (linkQuiet u) := by
  rcases linkQuiet_cases u with ⟨-, he⟩ | ⟨since, -, he⟩ <;> rw [he]
  · exact h
  · exact h.con rfl

/-- A request begins no attempt when the judging of it begins none. -/
theorem takeRequest_noneBegun {act : State → State × Answer} (hact : ∀ u, NoneBegun u (act u).1) (code : Nat)
    (early : Bool) (s : State) : NoneBegun s (takeRequest code early act s) := by
  have htaken : NoneBegun s (requestTaken s) := .of_con rfl
  cases hr : linkReady s
  · rw [takeRequest_lost code early act s hr]
    exact .of_con (by simp)
  by_cases hc : configured s = true ∨ early = true
  · rw [takeRequest_taken code early act s hr hc]
    exact (htaken.trans (hact _)).con (by simp)
  · obtain ⟨hn, rfl⟩ : configured s = false ∧ early = false := by simpa using hc
    rw [takeRequest_early code act s hr hn]
    exact htaken.con (by simp)

theorem judgeConfigure_noneBegun (record : List Byte) (s : State) : NoneBegun s (judgeConfigure record s).1 := by
  unfold judgeConfigure
  split
  · exact .refl s
  dsimp only
  split
  · exact .refl s
  · unfold acceptConfiguration leaveUnconfigured
    dsimp only
    split
    · exact .of_con (by simp)
    · refine NoneBegun.enterAwaitSupply (.of_con ?_) _
      rfl

theorem judgeReadObserved_noneBegun (s : State) : NoneBegun s (judgeReadObserved s).1 := by
  unfold judgeReadObserved
  split <;> exact .of_con rfl

theorem judgeReport_noneBegun (position landing occupancy reserved : Byte) (s : State) :
    NoneBegun s (judgeReport position landing occupancy reserved s).1 := by
  unfold judgeReport
  split
  · exact .refl s
  · rename_i p _ _
    have hnoted : NoneBegun s (noteReport p landing occupancy s) := by
      refine NoneBegun.lockoutBy (.of_con ?_) p
      simp
    rw [takeReport_eq, acceptWithState, actOnReport]
    split
    · exact hnoted.actOnPosition
    · split
      · exact hnoted.actOnPosition
      · exact hnoted
    · exact hnoted.con (by simp)
    · exact hnoted
  · exact .refl s

/-- A restart leaves no attempt (R131). -/
theorem restartState_noneBegun (s : State) : NoneBegun s (restartState s) := by
  have hvalues : NoneBegun s (restartValues s) := .over rfl
  unfold restartState
  dsimp only
  split
  · exact hvalues.goTo _
  · refine NoneBegun.enterAwaitSupply (hvalues.con ?_) _
    rfl

theorem tripRecorded_noneBegun (dir : Direction) (load : Byte) (s : State) : NoneBegun s (tripRecorded dir load s) := by
  unfold tripRecorded
  split
  · refine NoneBegun.enterServiceWait (NoneBegun.withSeq (NoneBegun.postClaim (.of_con ?_)) _)
    rfl
  · exact .of_con rfl
  · refine NoneBegun.postClaim (.of_con ?_)
    rfl

theorem judgeTripRequest_noneBegun (direction load reserved : Byte) (s : State) :
    NoneBegun s (judgeTripRequest direction load reserved s).1 := by
  have hload : NoneBegun s (loadJudged load s) := .of_con (by simp [loadJudged])
  have haccept (dir : Direction) : NoneBegun s (acceptTrip dir load (loadJudged load s)).1 := by
    refine (hload.trans (tripRecorded_noneBegun dir load _)).con ?_
    rw [acceptTrip_eq, startRecorded]
    split
    · simp
    · rfl
  cases hr : tripRequestRefusal s with
  | some a =>
    rw [judgeTripRequest_refused hr]
    exact .refl s
  | none =>
    cases hd : directionOf direction with
    | none =>
      rw [judgeTripRequest_direction hr hd]
      exact .refl s
    | some dir =>
      rw [judgeTripRequest_fields hr hd]
      split_ifs
      · exact hload
      · exact hload
      · exact haccept dir

theorem NoneBegun.cancelCompleted {s u : State} (h : NoneBegun s u) (x : Trip) : NoneBegun s (cancelCompleted x u) := by
  refine NoneBegun.endCancelled (h.con ?_) true x
  split <;> rfl

theorem cancelByRecord_noneBegun (tripId : Byte) (s : State) : NoneBegun s (cancelByRecord tripId s).1 := by
  unfold cancelByRecord
  split
  · exact .refl s
  split
  · exact .refl s
  split
  · exact .refl s
  split
  · refine NoneBegun.withdrawClaim (.of_con ?_)
    rfl
  · exact (NoneBegun.refl s).withdrawClaim.endTrip.returnToOrigin _

theorem judgeTripCancel_noneBegun (tripId : Byte) (s : State) : NoneBegun s (judgeTripCancel tripId s).1 := by
  unfold judgeTripCancel
  split
  · exact .refl s
  · unfold cancelInFallback
    split
    · exact .refl s
    split
    · exact .refl s
    split
    · exact (NoneBegun.refl s).endTrip
    · exact .refl s
  split
  · split
    · exact (NoneBegun.refl s).cancelCompleted _
    split
    · exact .refl s
    · exact cancelByRecord_noneBegun tripId s
  · exact cancelByRecord_noneBegun tripId s

theorem NoneBegun.endRun {s u : State} (h : NoneBegun s u) (x : Trip) (p : Position) : NoneBegun s (endRun x p u) := by
  have hposted (r : Release) : NoneBegun s (setEnding x (Machine.postRelease r u)) := (h.postRelease r).con rfl
  unfold Machine.endRun
  dsimp only
  split
  · exact (hposted _).enterLanded
  · exact (hposted _).enterServiceIdle
  · exact (hposted _).enterServiceIdle
  · exact (hposted _).enterEvacWait

theorem NoneBegun.endShedRun {s u : State} (h : NoneBegun s u) (x : Trip) (p : Position) :
    NoneBegun s (endShedRun x p u) := by
  have hposted : NoneBegun s (setEnding x (Machine.postShed x.id u)) := (h.postShed x.id).con rfl
  unfold Machine.endShedRun
  dsimp only
  split
  · exact hposted.enterParked
  · exact hposted.goTo _

theorem takeTripEnd_noneBegun (x : Trip) (p : Position) (landing : Byte) (s : State) :
    NoneBegun s (takeTripEnd x p landing s) := by
  have hstop : NoneBegun s (stopAtEnd p landing s) := by
    refine NoneBegun.withSeq (NoneBegun.withSeq (NoneBegun.lockoutBy (.withSeq (.refl s) _) p) _) _
  unfold takeTripEnd
  dsimp only
  split
  · exact hstop.con (by simp)
  · exact hstop.endShedRun x p
  · exact hstop.endRun x p

theorem judgeTripEnd_noneBegun (tripId position landing reserved : Byte) (s : State) :
    NoneBegun s (judgeTripEnd tripId position landing reserved s).1 := by
  unfold judgeTripEnd
  split
  · exact .refl s
  split
  · exact .refl s
  split
  · exact .refl s
  split
  · exact .refl s
  split
  · exact .refl s
  · exact takeTripEnd_noneBegun ..

theorem NoneBegun.wakeCar {s u : State} (h : NoneBegun s u) : NoneBegun s (wakeCar u) := by
  refine NoneBegun.enterServiceWait (NoneBegun.withSeq (NoneBegun.postClaim (h.con ?_)) _)
  rfl

theorem NoneBegun.setSelected {s u : State} (h : NoneBegun s u) (b : Bool) : NoneBegun s (setSelected b u) := by
  unfold Machine.setSelected
  split
  · exact h
  · refine NoneBegun.markPresence (h.con ?_)
    rfl

theorem judgeServiceSelect_noneBegun (value reserved : Byte) (s : State) :
    NoneBegun s (judgeServiceSelect value reserved s).1 := by
  have hset (b : Bool) : NoneBegun s (setSelected b s) := (NoneBegun.refl s).setSelected b
  unfold judgeServiceSelect
  split
  · exact .refl s
  split
  · exact .refl s
  split
  · exact .refl s
  split
  · exact .refl s
  split
  · exact hset false
  split
  · exact .refl s
  split
  · split
    · exact .refl s
    · exact (hset true).wakeCar
  · exact hset true

theorem judgeCallEvent_noneBegun (source reserved : Byte) (s : State) :
    NoneBegun s (judgeCallEvent source reserved s).1 := by
  unfold judgeCallEvent
  split
  · exact .refl s
  split
  · exact .refl s
  split
  · exact .of_con rfl
  split
  · split
    · exact .refl s
    · exact (NoneBegun.refl s).wakeCar
  · exact .refl s

/-! ### The other commands -/

theorem execColdReset_ordered (pins : ResetPins) (s : State) : NextMeets (OrderKept s) (execColdReset pins s) := by
  refine NoneBegun.next (.over ?_)
  split <;> rfl

theorem execConfigure_ordered (record : List Byte) (s : State) : NextMeets (OrderKept s) (execConfigure record s) := by
  refine NoneBegun.next ?_
  split
  · exact takeRequest_noneBegun (judgeConfigure_noneBegun record) ..
  · exact (NoneBegun.refl s).discardFrame

theorem execSense_ordered (s : State) : NextMeets (OrderKept s) (execSense s) := by
  refine NoneBegun.next ?_
  split
  · exact (NoneBegun.refl s).octetsArrive.con (by simp)
  · exact (NoneBegun.refl s).octetsArrive

theorem execRequestDiscarded_ordered (cause : DiscardCause) (s : State) :
    NextMeets (OrderKept s) (execRequestDiscarded cause s) := by
  refine NoneBegun.next ?_
  split
  · exact (NoneBegun.refl s).octetsArrive.con (by simp)
  · exact (NoneBegun.refl s).discardFrame

theorem execDiscardQuietExpiry_ordered (s : State) : NextMeets (OrderKept s) (execDiscardQuietExpiry s) := by
  unfold execDiscardQuietExpiry
  split
  · exact (NoneBegun.refl s).linkQuiet.next
  · exact noneBegun_same s

theorem execReplySent_ordered (s : State) : NextMeets (OrderKept s) (execReplySent s) := by
  unfold execReplySent
  split
  · exact NoneBegun.next (.of_con rfl)
  · exact noneBegun_same s

theorem execTrnDebounceExpiry_ordered (s : State) : NextMeets (OrderKept s) (execTrnDebounceExpiry s) := by
  unfold execTrnDebounceExpiry
  split
  · refine NoneBegun.next ?_
    split
    · exact NoneBegun.onTakeover (.of_con (by simp))
    · exact NoneBegun.onRetransfer (.of_con (by simp))
    · exact .of_con (by simp)
  · exact noneBegun_same s

theorem execGokDebounceExpiry_ordered (s : State) : NextMeets (OrderKept s) (execGokDebounceExpiry s) := by
  unfold execGokDebounceExpiry
  split
  · exact (NoneBegun.supplyEdge (.of_con (by simp)) _).next
  · exact noneBegun_same s

theorem execCapDebounceExpiry_ordered (s : State) : NextMeets (OrderKept s) (execCapDebounceExpiry s) := by
  unfold execCapDebounceExpiry
  split
  · exact (NoneBegun.reformCap (.of_con (by simp))).next
  · exact noneBegun_same s

theorem execFsnPulse_ordered (period : Nat) (s : State) : NextMeets (OrderKept s) (execFsnPulse period s) := by
  unfold execFsnPulse
  split
  · exact noneBegun_same s
  split
  · exact NoneBegun.next (.of_con rfl)
  split
  · rename_i last _ _
    have habsent : NoneBegun s (becomeAbsent (passTo (last + Config.absenceTime) s)) := ((NoneBegun.refl s).passTo _).becomeAbsent
    exact NoneBegun.next (habsent.con rfl)
  · refine NoneBegun.next (NoneBegun.becomeClass (.of_con ?_) _)
    rfl

theorem execAbsenceExpiry_ordered (s : State) : NextMeets (OrderKept s) (execAbsenceExpiry s) := by
  unfold execAbsenceExpiry
  split
  · exact (NoneBegun.becomeAbsent (.of_con (by simp))).next
  · exact noneBegun_same s

/-- The timers of the supply monitor that only deliver a notice (R67, R71, R73, R75). -/
theorem noticeAfter_ordered (before : SupplyMonitor) {s u : State} (h : u.con = s.con) :
    NextMeets (OrderKept s) (.next (noticeAfter before u)) := ((NoneBegun.of_con h).noticeAfter before).next

theorem execUnderTimerExpiry_ordered (s : State) : NextMeets (OrderKept s) (execUnderTimerExpiry s) := by
  unfold execUnderTimerExpiry
  split
  · dsimp only
    split
    · exact NoneBegun.next (.of_con (by simp))
    · exact (NoneBegun.reformCap (.of_con (by simp))).next
  · exact noneBegun_same s

theorem execLineActivityStart_ordered (s : State) : NextMeets (OrderKept s) (execLineActivityStart s) := by
  unfold execLineActivityStart
  dsimp only
  split
  · exact NoneBegun.next (.of_con rfl)
  split
  · refine .next ?_
    split
    · exact (endActivity_ordered ..).trans (setLine_ordered ..)
    · exact setLine_ordered ..
  split
  · refine .next ?_
    split
    · exact (openReceiver_noneBegun ..).ordered.trans (setLine_ordered ..)
    · exact setLine_ordered ..
  split
  · exact .next (setLine_ordered ..)
  · exact noneBegun_same s

theorem NoneBegun.lineError {s u : State} (h : NoneBegun s u) (k : LineError) : NoneBegun s (lineError k u) := h.con (by simp)

theorem execLongDominantExpiry_ordered (s : State) : NextMeets (OrderKept s) (execLongDominantExpiry s) := by
  unfold execLongDominantExpiry
  split
  · exact noneBegun_same s
  dsimp only
  split
  · exact noneBegun_same s
  split
  · exact ((((NoneBegun.refl s).setLine _).passTo _).lineError _).next
  · exact noneBegun_same s

theorem execEndOfActivity_ordered (changes : List LineChange) (s : State) :
    NextMeets (OrderKept s) (execEndOfActivity changes s) := by
  unfold execEndOfActivity
  split
  · split
    · exact .next (endActivity_ordered ..)
    · exact NoneBegun.next (.of_con rfl)
  · exact NoneBegun.next (.of_con rfl)

theorem execReadbackMismatch_ordered (s : State) : NextMeets (OrderKept s) (execReadbackMismatch s) := by
  unfold execReadbackMismatch
  split
  · exact noneBegun_same s
  split
  · exact (((NoneBegun.refl s).setLine _).failAtBit ..).next
  split
  · exact (((NoneBegun.refl s).setLine _).failAtBit ..).next
  · exact noneBegun_same s

theorem execAttemptJoined_ordered (s : State) : NextMeets (OrderKept s) (execAttemptJoined s) := by
  unfold execAttemptJoined
  split
  · exact noneBegun_same s
  dsimp only
  split
  · exact (((NoneBegun.refl s).setLine _).passTo _).failAttempt.next
  · exact noneBegun_same s

theorem execPresenceDueExpiry_ordered (s : State) : NextMeets (OrderKept s) (execPresenceDueExpiry s) := by
  unfold execPresenceDueExpiry
  split
  · refine NoneBegun.next (NoneBegun.markPresence (.inr ?_))
    exact ⟨by simp, by simp, by simp⟩
  · exact noneBegun_same s

theorem execRecordStale_ordered (station : Nat) (s : State) : NextMeets (OrderKept s) (execRecordStale station s) := by
  unfold execRecordStale
  split
  · split
    · exact (NoneBegun.changeRoster (.of_con (by simp)) _).next
    · exact noneBegun_same s
  · exact noneBegun_same s

theorem execStartWindowExpiry_ordered (s : State) : NextMeets (OrderKept s) (execStartWindowExpiry s) := by
  unfold execStartWindowExpiry
  split
  · exact (NoneBegun.enterNoSupply (.of_con (by simp))).next
  · exact noneBegun_same s

theorem execJoinTimerExpiry_ordered (s : State) : NextMeets (OrderKept s) (execJoinTimerExpiry s) := by
  unfold execJoinTimerExpiry
  split
  · exact (NoneBegun.enterAssess (.of_con (by simp))).next
  · exact noneBegun_same s

theorem execOccupancyHoldExpiry_ordered (s : State) : NextMeets (OrderKept s) (execOccupancyHoldExpiry s) := by
  unfold execOccupancyHoldExpiry
  split
  · exact NoneBegun.next (.of_con (by simp))
  · exact noneBegun_same s

theorem NoneBegun.overtimeRun {s u : State} (h : NoneBegun s u) (x : Trip) : NoneBegun s (overtimeRun x u) := by
  have hlocked : NoneBegun s (Machine.setLockout true (raise .overtime (stopRun u))) := (h.con (by simp)).setLockout true
  have hdiscarded : NoneBegun s (discardTrip (Machine.setLockout true (raise .overtime (stopRun u)))) := hlocked.endTrip.withSeq _
  exact ((hdiscarded.postRelease _).withSeq _).enterAssess

theorem execRunLimitExpiry_ordered (s : State) : NextMeets (OrderKept s) (execRunLimitExpiry s) := by
  unfold execRunLimitExpiry
  split
  · split
    · have hpassed : NoneBegun s (passToExpiry s.seq.runTimer ((conf s).runLimit * Config.second) s) := .of_con (by simp)
      refine NoneBegun.next ?_
      split
      · exact NoneBegun.setLockout (hpassed.con (by simp)) true
      · exact hpassed.overtimeRun _
    · exact noneBegun_same s
  · exact noneBegun_same s

theorem NoneBegun.parkCar {s u : State} (h : NoneBegun s u) : NoneBegun s (parkCar u) := (h.postRelease _).enterParked

theorem execLandingDwellExpiry_ordered (s : State) : NextMeets (OrderKept s) (execLandingDwellExpiry s) := by
  unfold execLandingDwellExpiry
  split
  · refine NoneBegun.next ?_
    split
    · exact NoneBegun.enterServiceIdle (.of_con (by simp))
    · exact NoneBegun.parkCar (.of_con (by simp))
  · exact noneBegun_same s

theorem execIdleTimerExpiry_ordered (s : State) : NextMeets (OrderKept s) (execIdleTimerExpiry s) := by
  unfold execIdleTimerExpiry
  split
  · exact (NoneBegun.parkCar (.of_con (by simp))).next
  · exact noneBegun_same s

theorem execAgingExpiry_ordered (s : State) : NextMeets (OrderKept s) (execAgingExpiry s) := by
  unfold execAgingExpiry
  split
  · refine NoneBegun.next (.of_con ?_)
    split
    · split <;> simp
    · simp
  · exact noneBegun_same s

theorem NoneBegun.publishDemand {s u : State} (h : NoneBegun s u) : NoneBegun s (publishDemand u) := by
  unfold Machine.publishDemand
  split
  · exact (h.withAdm _).markPresence.con rfl
  · exact h

theorem execPatienceExpiry_ordered (s : State) : NextMeets (OrderKept s) (execPatienceExpiry s) := by
  unfold execPatienceExpiry
  split
  · exact (NoneBegun.publishDemand (.of_con (by simp))).next
  · exact noneBegun_same s

theorem execShedHoldExpiry_ordered (s : State) : NextMeets (OrderKept s) (execShedHoldExpiry s) := by
  unfold execShedHoldExpiry
  split
  · exact NoneBegun.next (.of_con rfl)
  · exact noneBegun_same s

theorem execFallbackTripStart_ordered (s : State) : NextMeets (OrderKept s) (execFallbackTripStart s) := by
  unfold execFallbackTripStart
  split
  · refine NoneBegun.next (.of_con ?_)
    simp only [startFallbackTrip_keeps]
    split <;> rfl
  · exact noneBegun_same s

theorem execOwnWindowClose_ordered (s : State) : NextMeets (OrderKept s) (execOwnWindowClose s) := by
  unfold execOwnWindowClose
  split
  · refine NoneBegun.next (.of_con ?_)
    split <;> split <;> rfl
  · exact noneBegun_same s

theorem execFirstBaseGap_ordered (s : State) : NextMeets (OrderKept s) (execFirstBaseGap s) := by
  unfold execFirstBaseGap
  dsimp only
  split
  · exact (openReceiver_noneBegun ..).next
  · exact noneBegun_same s

/-- Every command keeps both laws. -/
theorem exec_ordered (i : Instr) (s : State) : NextMeets (OrderKept s) (exec i s) := by
  cases i with
  | coldReset pins => exact execColdReset_ordered pins s
  | configure record => exact execConfigure_ordered record s
  | query => exact (takeRequest_noneBegun (fun _ => .of_con rfl) ..).next
  | sense => exact execSense_ordered s
  | clearConditions => exact (takeRequest_noneBegun (fun _ => .of_con rfl) ..).next
  | readObserved => exact (takeRequest_noneBegun judgeReadObserved_noneBegun ..).next
  | readStation station =>
    exact (takeRequest_noneBegun (fun u => by rw [judgeReadStation_keeps]; exact .refl u) ..).next
  | carReport p l o r => exact (takeRequest_noneBegun (judgeReport_noneBegun p l o r) ..).next
  | restart => exact (takeRequest_noneBegun restartState_noneBegun ..).next
  | tripRequest d l r => exact (takeRequest_noneBegun (judgeTripRequest_noneBegun d l r) ..).next
  | tripCancel tripId => exact (takeRequest_noneBegun (judgeTripCancel_noneBegun tripId) ..).next
  | tripEnd i p l r => exact (takeRequest_noneBegun (judgeTripEnd_noneBegun i p l r) ..).next
  | serviceSelect v r => exact (takeRequest_noneBegun (judgeServiceSelect_noneBegun v r) ..).next
  | callEvent source r => exact (takeRequest_noneBegun (judgeCallEvent_noneBegun source r) ..).next
  | unknownRequestCode code fields => exact (takeRequest_noneBegun (fun u => .refl u) ..).next
  | requestDiscarded cause => exact execRequestDiscarded_ordered cause s
  | requestGapExpiry => exact (NoneBegun.refl s).octetsArrive.linkQuiet.next
  | discardQuietExpiry => exact execDiscardQuietExpiry_ordered s
  | replySent => exact execReplySent_ordered s
  | trnChange reading => exact NoneBegun.next (.of_con rfl)
  | trnDebounceExpiry => exact execTrnDebounceExpiry_ordered s
  | gokChange reading => exact NoneBegun.next (.of_con rfl)
  | gokDebounceExpiry => exact execGokDebounceExpiry_ordered s
  | capChange code => exact NoneBegun.next (.of_con rfl)
  | capDebounceExpiry => exact execCapDebounceExpiry_ordered s
  | fsnPulse period => exact execFsnPulse_ordered period s
  | absenceExpiry => exact execAbsenceExpiry_ordered s
  | inWindowHalfSecond =>
    simp only [exec, execInWindowHalfSecond]
    split
    · exact noticeAfter_ordered _ (by simp)
    · exact noneBegun_same s
  | underTimerExpiry => exact execUnderTimerExpiry_ordered s
  | capacityHoldExpiry =>
    simp only [exec, execCapacityHoldExpiry]
    split
    · exact noticeAfter_ordered _ (by simp)
    · exact noneBegun_same s
  | settleTimerExpiry =>
    simp only [exec, execSettleTimerExpiry]
    split
    · exact noticeAfter_ordered _ rfl
    · exact noneBegun_same s
  | lineActivityStart => exact execLineActivityStart_ordered s
  | longDominantExpiry => exact execLongDominantExpiry_ordered s
  | endOfActivity changes => exact execEndOfActivity_ordered changes s
  | roundClose => exact execRoundClose_ordered s
  | slotExpiry => exact execSlotExpiry_ordered s
  | readbackMismatch => exact execReadbackMismatch_ordered s
  | attemptJoined => exact execAttemptJoined_ordered s
  | presenceDueExpiry => exact execPresenceDueExpiry_ordered s
  | recordStale station => exact execRecordStale_ordered station s
  | startWindowExpiry => exact execStartWindowExpiry_ordered s
  | joinTimerExpiry => exact execJoinTimerExpiry_ordered s
  | occupancyHoldExpiry => exact execOccupancyHoldExpiry_ordered s
  | runLimitExpiry => exact execRunLimitExpiry_ordered s
  | landingDwellExpiry => exact execLandingDwellExpiry_ordered s
  | idleTimerExpiry => exact execIdleTimerExpiry_ordered s
  | agingExpiry => exact execAgingExpiry_ordered s
  | patienceExpiry => exact execPatienceExpiry_ordered s
  | shedHoldExpiry => exact execShedHoldExpiry_ordered s
  | fallbackTripStart => exact execFallbackTripStart_ordered s
  | ownWindowClose => exact execOwnWindowClose_ordered s
  | firstBaseGap => exact execFirstBaseGap_ordered s

theorem step_ordered (s : State) : NextMeets (OrderKept s) (step s) := by
  unfold step
  split
  · exact NoneBegun.next (.of_con rfl)
  · rename_i c rest _
    intro t ht
    have hpopped : NoneBegun s { s with pending := rest } := .of_con rfl
    exact hpopped.ordered.trans (exec_ordered c _ t ht)

/-- Settles O19: a CLAIM is chosen only with no RELEASE in its slot, and a RELEASE posted later ends its waiting. -/
theorem releaseFirstKept : Obligations.ReleaseFirstKept :=
  fun s t h hstep => (step_ordered s t hstep).releaseFirst h

/-- Settles O20: a completion leaves no attempt, and none is chosen until the round's close clears the spoken flag. -/
theorem spokenWaitsKept : Obligations.SpokenWaitsKept :=
  fun s t h hstep => (step_ordered s t hstep).spokenWaits h

end Sys2Proof.Machine
end

section
/-!
The landing dwell and the idle timer expire: O58. A car that stays in service enters SERVICE_IDLE; every other one posts its PARK RELEASE
and parks.
-/

namespace Sys2Proof.Machine

/-! ### A car parked (R112, R145, R147) -/

/-- The RELEASE of a car that parks. -/
def parkRelease (s : State) : Release := { reason := .park, tripId := s.seq.lastTripId, draw := 0, stamp := 0 }

/-- What parking writes: the state, the RELEASE slot, PRESENCE, and a waiting CLAIM with its record's arming. -/
structure CarParked (s t : State) : Prop where
  seq : t.seq = { s.seq with state := .parked, shdn := false, trip := t.seq.trip }
  con : t.con = { s.con with
    attempt := t.con.attempt, key := t.con.key, slotDeadline := t.con.slotDeadline, releaseSlot := some (parkRelease s)
    superseded := t.con.superseded, presenceDue := true, remarked := t.con.remarked }
  kept : s.con.attempt.isWaiting .claim = false → t.seq.trip = s.seq.trip ∧ t.con.attempt = s.con.attempt
  now : t.now = s.now
  frame : t = { s with now := t.now, seq := t.seq, con := t.con, link := { s.link with attention := true } }

theorem postRelease_unclaimed {s : State} (h : s.con.attempt.isWaiting .claim = false) (r : Release) :
    postRelease r s = releasePosted r s := by
  simp [postRelease, h, releasePosted]

/-- An attempt lost leaves the slots and the round as they are. -/
theorem AttemptLost.conFrame {s t : State} (h : AttemptLost s t) :
    t.con = { s.con with attempt := t.con.attempt, key := t.con.key, slotDeadline := t.con.slotDeadline } := by
  rcases h.con with hc | hc
  · rw [hc]
  · rw [hc]
    rfl

theorem parkCar_parked {s : State} (h : s.seq.state ≠ .parked) : CarParked s (parkCar s) := by
  have hkept (hw : s.con.attempt.isWaiting .claim = false) := postRelease_unclaimed hw (parkRelease s)
  have hlost := postRelease_lost (parkRelease s) s
  have hentered : parkCar s = _ := enterParked_eq (s := postRelease (parkRelease s) s) (by simpa using h)
  rw [hentered]
  generalize postRelease (parkRelease s) s = u at hkept hlost
  have hframe := hlost.frame
  have hcon := hlost.conFrame
  refine ⟨?_, ?_, fun hw => ?_, ?_, ?_⟩
  · rw [hframe]
    rfl
  · rw [hcon]
    rfl
  · rw [hkept hw]
    exact ⟨rfl, rfl⟩
  · rw [hframe]
    rfl
  · rw [hframe]
    rfl

section

variable {s t : State} (h : CarParked s t)
include h

theorem CarParked.attention : t.link.attention = true := by rw [h.frame]

theorem CarParked.presenceDue : t.con.presenceDue = true := by rw [h.con]

theorem CarParked.releaseSlot : t.con.releaseSlot = some (parkRelease s) := by rw [h.con]

theorem CarParked.state : t.seq.state = .parked := by rw [h.seq]

theorem CarParked.dwellTimer : t.seq.dwellTimer = s.seq.dwellTimer := by rw [h.seq]

theorem CarParked.idleTimer : t.seq.idleTimer = s.seq.idleTimer := by rw [h.seq]

theorem CarParked.seqFrame : t.seq = { s.seq with
    state := t.seq.state, shdn := false, dwellTimer := t.seq.dwellTimer, idleTimer := t.seq.idleTimer
    trip := t.seq.trip } := by rw [h.seq]

theorem CarParked.conFrame : t.con = { s.con with
    attempt := t.con.attempt, key := t.con.key, slotDeadline := t.con.slotDeadline, releaseSlot := t.con.releaseSlot
    superseded := t.con.superseded, presenceDue := true, remarked := t.con.remarked } := by rw [h.con]

end

/-! ### The two timers (R145, R147) -/

theorem execLandingDwellExpiry_running {s : State} {since : Nat} (hs : s.seq.state = .landed)
    (hd : s.seq.dwellTimer = .running since) :
    execLandingDwellExpiry s =
      let t := { passTo (since + (conf s).dwell * Config.second) s with seq := { s.seq with dwellTimer := .stopped } }
      .next (if s.seq.serviceSelected && !s.seq.lockout then enterServiceIdle t else parkCar t) := by
  simp [execLandingDwellExpiry, hs, hd, passTo]

theorem execIdleTimerExpiry_running {s : State} {since : Nat} (hs : s.seq.state = .serviceIdle)
    (hi : s.seq.idleTimer = .running since) :
    execIdleTimerExpiry s = .next (parkCar
      { passTo (since + (conf s).idleTime * Config.second) s with seq := { s.seq with idleTimer := .stopped } }) := by
  simp [execIdleTimerExpiry, hs, hi, passTo]

/-- The dwell is over for a selected car: it is idle in service (R145). -/
theorem landingDwell_serves {s : State} {since : Nat} (hs : s.seq.state = .landed) (hd : s.seq.dwellTimer = .running since)
    (hserves : (s.seq.serviceSelected && !s.seq.lockout) = true) :
    execLandingDwellExpiry s = .next (entered .serviceIdle
      { passTo (since + (conf s).dwell * Config.second) s with seq := { s.seq with dwellTimer := .stopped } }) := by
  rw [execLandingDwellExpiry_running hs hd]
  dsimp only
  rw [if_pos hserves, enterServiceIdle_entered (by simp [hs])]

theorem landingDwell_parks {s : State} {since : Nat} (hs : s.seq.state = .landed) (hd : s.seq.dwellTimer = .running since)
    (hserves : ¬ (s.seq.serviceSelected && !s.seq.lockout) = true) :
    execLandingDwellExpiry s = .next (parkCar
      { passTo (since + (conf s).dwell * Config.second) s with seq := { s.seq with dwellTimer := .stopped } }) := by
  rw [execLandingDwellExpiry_running hs hd]
  exact congrArg Host.Outcome.next (if_neg hserves)

/-- Settles O58: a selected car that is not locked out enters SERVICE_IDLE from LANDED; the other two expiries park the car. -/
theorem dwellAndIdleEnd : Obligations.DwellAndIdleEnd := by
  intro s since i limit h
  rcases h with ⟨rfl, hs, hd, rfl⟩ | ⟨rfl, hs, hi, rfl⟩
  · by_cases hserves : (s.seq.serviceSelected && !s.seq.lockout) = true
    · obtain ⟨hselected, hlockout⟩ : s.seq.serviceSelected = true ∧ s.seq.lockout = false := by simpa using hserves
      refine ⟨_, landingDwell_serves hs hd hserves, rfl, rfl, rfl, fun _ _ _ => ⟨rfl, rfl, rfl⟩, fun hparks => ?_,
        fun _ => rfl, (nomatch ·), rfl, fun _ => ⟨rfl, rfl⟩, rfl, rfl⟩
      simp [hselected, hlockout] at hparks
    · have hp := parkCar_parked (s := { passTo (since + (conf s).dwell * Config.second) s with
        seq := { s.seq with dwellTimer := .stopped } }) (by simp [hs])
      exact ⟨_, landingDwell_parks hs hd hserves, hp.now, hp.presenceDue, hp.attention,
        fun _ hselected hlockout => absurd (by simp [hselected, hlockout]) hserves, fun _ => ⟨hp.state, hp.releaseSlot⟩,
        fun _ => hp.dwellTimer, (nomatch ·), hp.seqFrame, hp.kept, hp.conFrame, hp.frame⟩
  · have hp := parkCar_parked (s := { passTo (since + (conf s).idleTime * Config.second) s with
      seq := { s.seq with idleTimer := .stopped } }) (by simp [hs])
    exact ⟨_, execIdleTimerExpiry_running hs hi, hp.now, hp.presenceDue, hp.attention, (nomatch ·),
      fun _ => ⟨hp.state, hp.releaseSlot⟩, (nomatch ·), fun _ => hp.idleTimer, hp.seqFrame, hp.kept, hp.conFrame, hp.frame⟩

end Sys2Proof.Machine
end

section
/-!
The laws of R118 and R136 with RESET released (O18), and the operations that leave what they speak of: the columns of the table, the
phase and the step of the trip record, and outside the driving states the standing and the outbound state.
-/

namespace Sys2Proof.Machine

/-! ### What the laws speak of -/

/-- The columns of the table of R118, with what it reads of TRN and RESET. -/
structure Columns where
  held : Bool
  trn : TrnReading
  state : SeqState
  runp : Bool
  spd : SpeedStep
  emop : Bool
  shdn : Bool
  isOpen : Bool

def columns (s : State) : Columns :=
  { held := inReset s, trn := s.supply.trn, state := s.seq.state, runp := s.seq.runp, spd := s.seq.spd, emop := s.seq.emop
    shdn := s.seq.shdn, isOpen := s.roster.isOpen }

/-- The phase and the admitted step of the trip record. -/
def gait (s : State) : Option (TripPhase × Option SpeedStep) := s.seq.trip.map fun x => (x.phase, x.step)

/-- The own standing (R119). -/
def ownStand (s : State) : Int × Nat × Nat := (s.seq.commitment, s.seq.claimClass, s.seq.stamp)

/-- Everything the laws speak of. -/
def lawView (s : State) :=
  (columns s, gait s, ownStand s, s.con.attempt, s.con.releaseSlot, s.con.claimSlot, s.con.presenceDue, s.line.transmitter)

/-- The states in which RUNP is asserted (R118). -/
def SeqState.permits : SeqState → Bool
  | .evacRun | .serviceRun | .shedPending => true
  | _ => false

theorem SeqState.permits_iff {st : SeqState} :
    st.permits = true ↔ st = .evacRun ∨ st = .serviceRun ∨ st = .shedPending := by
  cases st <;> simp [SeqState.permits]

/-- The states where the laws of a car under supply hold, and the others. -/
theorem SeqState.supplied_iff {st : SeqState} : st.supplied = true ↔ st.driving = true ∨ st = .fallback := by
  cases st <;> simp [SeqState.supplied, SeqState.driving]

theorem SeqState.supplied_of_driving {st : SeqState} (h : st.driving = true) : st.supplied = true :=
  SeqState.supplied_iff.mpr (.inl h)

theorem SeqState.session_of_supplied {st : SeqState} (h : st.supplied = true) : st.session = true := by
  cases st <;> simp_all [SeqState.session, SeqState.supplied, SeqState.driving]

theorem SeqState.opensRoster_of_supplied {st : SeqState} (h : st.supplied = true) : st.opensRoster = true := by
  cases st <;> simp_all [SeqState.opensRoster, SeqState.supplied, SeqState.driving]

theorem SeqState.joining_of_tripless {st : SeqState} (h : st.supplied = true) (ht : st.tripless = true) : st = .joining := by
  cases st <;> simp_all [SeqState.tripless, SeqState.supplied, SeqState.driving]

/-- A state that holds a trip record is a supplied one. -/
theorem SeqState.supplied_of_trip {st : SeqState} (h : st.tripless = false) : st.supplied = true := by
  cases st <;> simp_all [SeqState.tripless, SeqState.supplied, SeqState.driving]

theorem SeqState.driving_of_trip {st : SeqState} (h : st.tripless = false) (hf : st ≠ .fallback) : st.driving = true := by
  cases st <;> simp_all [SeqState.tripless, SeqState.driving]

theorem SeqState.session_of_ne {st : SeqState} (hu : st ≠ .unconfigured) (hd : st ≠ .dormant) : st.session = true := by
  cases st <;> simp_all [SeqState.session]

/-- The laws of the table with RESET released: `Sound` with what it says of the trip record said of its gait. -/
structure Lawful (s : State) : Prop where
  released : inReset s = false
  silent : s.seq.state.driving = false → OutboundClear s
  noTrip : s.seq.state.tripless = true → gait s = none
  dormant : s.seq.state = .dormant → s.supply.trn = .normal
  utility : s.seq.state.session = false →
    s.seq.runp = (s.supply.trn == .normal) ∧ s.seq.spd = if s.supply.trn = .normal then .p100 else .p25
  run : s.seq.state.session = true → s.seq.runp = true →
    s.seq.state.runs = true ∧ s.con.attempt.serves .claim = false ∧
      ∃ v, gait s = some (.running, v) ∧ s.seq.spd = v.getD .p25
  stand : s.seq.state.session = true → s.seq.runp = false → s.seq.spd = .p25
  permits : s.seq.state.permits = true → s.seq.runp = true
  unadmitted : ∀ v, gait s = some (.pending, v) → v = none
  emergency : s.seq.emop = s.seq.state.session
  shed : s.seq.shdn = (s.seq.state == .shedPending)
  roster : s.seq.state ≠ .isolated → s.roster.isOpen = s.seq.state.opensRoster
  standing : s.seq.state.driving = false → s.seq.state ≠ .fallback → ownStand s = (0, 0, 0)

theorem gait_none {s : State} : gait s = none ↔ s.seq.trip = none := Option.map_eq_none_iff

theorem gait_some {s : State} {x : Trip} (h : s.seq.trip = some x) : gait s = some (x.phase, x.step) := by simp [gait, h]

theorem exists_of_gait {s : State} {p : TripPhase} {v : Option SpeedStep} (h : gait s = some (p, v)) :
    ∃ x, s.seq.trip = some x ∧ x.phase = p ∧ x.step = v := by
  simpa [gait] using h

theorem Lawful.sound {s : State} (h : Lawful s) : Sound s where
  silent := h.silent
  noTrip ht := gait_none.mp (h.noTrip ht)
  dormant hd := by
    have hu := h.utility (by rw [hd]; rfl)
    simpa [h.dormant hd] using hu
  held hr := by simp [h.released] at hr
  unconfigured hu _ := h.utility (by rw [hu]; rfl)
  permit hs hp := by
    obtain ⟨hruns, hclaim, v, hg, -⟩ := h.run hs hp
    obtain ⟨x, hx, hphase, -⟩ := exists_of_gait hg
    exact ⟨hruns, by simp [tripIn, hx, hphase], hclaim⟩
  running hs := h.permits (SeqState.permits_iff.mpr hs)
  speed := h.stand
  pace hs hp x hx := by
    obtain ⟨-, -, v, hg, hv⟩ := h.run hs hp
    obtain ⟨y, hy, -, rfl⟩ := exists_of_gait hg
    rw [hx] at hy
    cases hy
    exact hv
  unadmitted x hx hp := h.unadmitted _ (by rw [gait_some hx, hp])
  emergency := h.emergency
  shed := h.shed
  roster := h.roster
  standing hd hf := by simpa [ownStand] using h.standing hd hf

theorem Sound.lawful {s : State} (h : Sound s) (hr : inReset s = false) : Lawful s where
  released := hr
  silent := h.silent
  noTrip ht := gait_none.mpr (h.noTrip ht)
  dormant hd := (h.dormant hd).1
  utility hs := by
    cases hst : s.seq.state <;> rw [hst] at hs
    case unconfigured => exact h.unconfigured hst hr
    case dormant =>
      obtain ⟨ht, hrunp, hspd⟩ := h.dormant hst
      simp [ht, hrunp, hspd]
    all_goals cases hs
  run hs hp := by
    obtain ⟨hruns, htrip, hclaim⟩ := h.permit hs hp
    obtain ⟨x, hx, hphase⟩ : ∃ x, s.seq.trip = some x ∧ x.phase = .running := by simpa [tripIn] using htrip
    exact ⟨hruns, hclaim, x.step, by rw [gait_some hx, hphase], h.pace hs hp x hx⟩
  stand := h.speed
  permits hs := h.running (SeqState.permits_iff.mp hs)
  unadmitted v hg := by
    obtain ⟨x, hx, hphase, rfl⟩ := exists_of_gait hg
    exact h.unadmitted x hx hphase
  emergency := h.emergency
  shed := h.shed
  roster := h.roster
  standing hd hf := by simpa [ownStand] using h.standing hd hf

/-! ### What leaves the laws -/

/-- The columns stand; the record keeps its gait, or is ARMED no longer; nothing new is on its way out of a silent state; no
CLAIM is chosen; a silent car's standing stands, but in FALLBACK. -/
structure LawsKept (s t : State) : Prop where
  columns : columns t = columns s
  gait : gait t = gait s ∨ (∃ v, gait s = some (.armed, v)) ∧ gait t = some (.pending, none)
  silent : s.seq.state.driving = false → OutboundClear s → OutboundClear t
  claim : t.con.attempt.serves .claim = true → s.con.attempt.serves .claim = true
  standing : s.seq.state.driving = false → s.seq.state ≠ .fallback → ownStand t = ownStand s

section

variable {s t : State} (h : LawsKept s t)
include h

theorem LawsKept.held : inReset t = inReset s := congrArg Columns.held h.columns

theorem LawsKept.trn : t.supply.trn = s.supply.trn := congrArg Columns.trn h.columns

theorem LawsKept.state : t.seq.state = s.seq.state := congrArg Columns.state h.columns

theorem LawsKept.runp : t.seq.runp = s.seq.runp := congrArg Columns.runp h.columns

theorem LawsKept.spd : t.seq.spd = s.seq.spd := congrArg Columns.spd h.columns

theorem LawsKept.emop : t.seq.emop = s.seq.emop := congrArg Columns.emop h.columns

theorem LawsKept.shdn : t.seq.shdn = s.seq.shdn := congrArg Columns.shdn h.columns

theorem LawsKept.isOpen : t.roster.isOpen = s.roster.isOpen := congrArg Columns.isOpen h.columns

theorem LawsKept.gait_none (hs : Machine.gait s = none) : Machine.gait t = none := by
  rcases h.gait with hg | ⟨⟨v, hv⟩, -⟩
  · rw [hg, hs]
  · rw [hs] at hv
    cases hv

theorem LawsKept.gait_running {v : Option SpeedStep} (hs : Machine.gait s = some (.running, v)) :
    Machine.gait t = some (.running, v) := by
  rcases h.gait with hg | ⟨⟨w, hw⟩, -⟩
  · rw [hg, hs]
  · rw [hs] at hw
    cases hw

theorem LawsKept.unadmitted (hs : ∀ v, Machine.gait s = some (.pending, v) → v = none) :
    ∀ v, Machine.gait t = some (.pending, v) → v = none := by
  intro v hv
  rcases h.gait with hg | ⟨-, hg⟩
  · exact hs v (hg ▸ hv)
  · rw [hg] at hv
    cases hv
    rfl

theorem LawsKept.unclaimed (hs : s.con.attempt.serves .claim = false) : t.con.attempt.serves .claim = false :=
  Bool.eq_false_iff.mpr fun ht => absurd (h.claim ht) (by simp [hs])

theorem LawsKept.trans {u : State} (g : LawsKept t u) : LawsKept s u where
  columns := g.columns.trans h.columns
  gait := by
    rcases g.gait with hg | ⟨⟨v, hv⟩, hg⟩
    · rcases h.gait with hh | ⟨ha, hh⟩
      · exact .inl (hg.trans hh)
      · exact .inr ⟨ha, hg.trans hh⟩
    · rcases h.gait with hh | ⟨-, hh⟩
      · exact .inr ⟨⟨v, hh ▸ hv⟩, hg⟩
      · rw [hh] at hv
        cases hv
  silent hd hs := g.silent (h.state ▸ hd) (h.silent hd hs)
  claim := h.claim ∘ g.claim
  standing hd hf := (g.standing (h.state ▸ hd) (h.state ▸ hf)).trans (h.standing hd hf)

theorem LawsKept.lawful (g : Lawful s) : Lawful t where
  released := h.held.trans g.released
  silent hd := h.silent (h.state ▸ hd) (g.silent (h.state ▸ hd))
  noTrip ht := h.gait_none (g.noTrip (h.state ▸ ht))
  dormant hd := h.trn.trans (g.dormant (h.state ▸ hd))
  utility hs := by
    rw [h.runp, h.spd, h.trn]
    exact g.utility (h.state ▸ hs)
  run hs hp := by
    obtain ⟨hruns, hclaim, v, hg, hv⟩ := g.run (h.state ▸ hs) (h.runp ▸ hp)
    exact ⟨h.state ▸ hruns, h.unclaimed hclaim, v, h.gait_running hg, h.spd.trans hv⟩
  stand hs hp := h.spd.trans (g.stand (h.state ▸ hs) (h.runp ▸ hp))
  permits hs := h.runp.trans (g.permits (h.state ▸ hs))
  unadmitted := h.unadmitted g.unadmitted
  emergency := by rw [h.emop, h.state, g.emergency]
  shed := by rw [h.shdn, h.state, g.shed]
  roster hi := by rw [h.isOpen, h.state, g.roster (h.state ▸ hi)]
  standing hd hf := (h.standing (h.state ▸ hd) (h.state ▸ hf)).trans (g.standing (h.state ▸ hd) (h.state ▸ hf))

end

/-- The same composition, read from its end. -/
theorem LawsKept.after {s t u : State} (g : LawsKept t u) (h : LawsKept s t) : LawsKept s u := h.trans g

theorem Lawful.kept {s t : State} (h : Lawful s) (g : LawsKept s t) : Lawful t := g.lawful h

theorem LawsKept.same {s t : State} (h : lawView t = lawView s) : LawsKept s t := by
  simp only [lawView, Prod.mk.injEq] at h
  obtain ⟨hcolumns, hgait, hstanding, hattempt, hrelease, hclaim, hdue, htransmitter⟩ := h
  refine ⟨hcolumns, .inl hgait, fun _ hs => ?_, fun ht => hattempt ▸ ht, fun _ _ => hstanding⟩
  rwa [OutboundClear, hattempt, hrelease, hclaim, hdue, htransmitter]

theorem LawsKept.refl (s : State) : LawsKept s s := .same rfl

/-- In a driving state the standing and the slots are free. -/
theorem LawsKept.driving {s t : State} (hd : s.seq.state.driving = true) (hcolumns : Machine.columns t = Machine.columns s)
    (hgait : Machine.gait t = Machine.gait s)
    (hclaim : t.con.attempt.serves .claim = true → s.con.attempt.serves .claim = true) : LawsKept s t where
  columns := hcolumns
  gait := .inl hgait
  silent hn := absurd hd (by simp [hn])
  claim := hclaim
  standing hn := absurd hd (by simp [hn])

/-- The same with the attempt over. -/
theorem LawsKept.ended {s t : State} (hd : s.seq.state.driving = true) (hcolumns : Machine.columns t = Machine.columns s)
    (hgait : Machine.gait t = Machine.gait s) (ha : t.con.attempt = .none) : LawsKept s t :=
  .driving hd hcolumns hgait fun ht => by rw [ha] at ht; cases ht

/-- An attempt lost changes nothing else the laws speak of. -/
theorem AttemptLost.lawsKept {s t : State} (h : AttemptLost s t) : LawsKept s t where
  columns := by rw [h.frame]; rfl
  gait := by
    rcases h.trip with ht | ⟨x, hx, harmed, ht⟩
    · exact .inl (by simp only [gait, ht])
    · exact .inr ⟨⟨x.step, by rw [gait_some hx, harmed]⟩, gait_some ht⟩
  silent _ := by
    rintro ⟨ha, hr, hc, hd, hx⟩
    obtain ⟨er, ec, ed⟩ := h.slots
    refine ⟨?_, er.trans hr, ec.trans hc, ed.trans hd, by rw [h.frame]; exact hx⟩
    rcases h.con with e | e <;> rw [e]
    · exact ha
    · rfl
  claim ht := by
    rcases h.con with e | e <;> rw [e] at ht
    · exact ht
    · cases ht
  standing _ _ := by rw [h.frame]; rfl

/-! ### The operations that leave the laws -/

theorem abandonAttempt_laws (s : State) : LawsKept s (abandonAttempt s) := (abandonAttempt_lost s).lawsKept

theorem claimLost_laws (s : State) : LawsKept s (claimLost s) := (claimLost_lost s).lawsKept

theorem markPresence_laws (s : State) : LawsKept s (markPresence s) := by
  cases hd : s.seq.state.driving
  · rw [markPresence_silent hd]
    exact .refl s
  · rw [markPresence_driving hd]
    exact .driving hd rfl rfl id

theorem postClaim_laws {s : State} (hd : s.seq.state.driving = true) : LawsKept s (postClaim s) := by
  unfold postClaim
  split
  · exact .driving hd rfl rfl id
  · exact .refl s

theorem postRelease_laws (r : Release) {s : State} (hd : s.seq.state.driving = true) : LawsKept s (postRelease r s) :=
  (postRelease_lost r s).lawsKept.after (.driving hd rfl rfl id)

theorem postShed_laws (id : Fin 16) {s : State} (hd : s.seq.state.driving = true) : LawsKept s (postShed id s) := by
  unfold postShed
  refine (markPresence_laws _).after (LawsKept.trans (postRelease_laws (shedRelease id) hd) (.same ?_))
  rfl

theorem withdrawClaim_laws (s : State) : LawsKept s (withdrawClaim s) := by
  have hempty (u : State) : LawsKept u { u with con := { u.con with claimSlot := none } } :=
    ⟨rfl, .inl rfl, fun _ ⟨ha, hr, _, hd, hx⟩ => ⟨ha, hr, rfl, hd, hx⟩, id, fun _ _ => rfl⟩
  unfold withdrawClaim
  split
  · exact .same rfl
  · refine LawsKept.trans ?_ (hempty (if s.con.attempt.isWaiting .claim then abandonAttempt s else s))
    split
    · exact abandonAttempt_laws s
    · exact .refl s

/-- A record written with the gait it had. -/
theorem changeTrip_laws {s : State} {x y : Trip} (hx : s.seq.trip = some x) (h : (y.phase, y.step) = (x.phase, x.step)) :
    LawsKept s (changeTrip (some y) s) := by
  refine .same ?_
  have hg : gait (changeTrip (some y) s) = gait s := by rw [gait_some hx, ← h]; rfl
  simp only [lawView, hg]
  rfl

theorem followOccupancy_laws (s : State) : LawsKept s (followOccupancy s) := by
  unfold followOccupancy
  split
  · rename_i x hx
    split
    · exact changeTrip_laws hx rfl
    · exact .refl s
  · exact .refl s

theorem setLockout_laws (b : Bool) (s : State) : LawsKept s (setLockout b s) := by
  unfold setLockout
  split
  · exact .refl s
  · exact (markPresence_laws _).after (.same rfl)

theorem lockoutBy_laws (p : Position) (s : State) : LawsKept s (lockoutBy p s) := by
  cases p
  · exact setLockout_laws ..
  · exact .refl s
  · exact setLockout_laws ..

theorem setSelected_laws (b : Bool) (s : State) : LawsKept s (setSelected b s) := by
  unfold setSelected
  split
  · exact .refl s
  · exact (markPresence_laws _).after (.same rfl)

theorem oweShed_laws (s : State) : LawsKept s (oweShed s) := by
  refine LawsKept.trans (.same ?_) (withdrawClaim_laws _)
  simp [lawView, columns, gait, ownStand, inReset, Function.comp_def]

theorem raise_laws (k : Condition) (s : State) : LawsKept s (raise k s) := by
  unfold raise
  split
  · exact .refl s
  · exact .same rfl

theorem raiseIf_laws (p : Bool) (k : Condition) (s : State) : LawsKept s (raiseIf p k s) := by
  unfold raiseIf
  split
  · exact raise_laws k s
  · exact .refl s

theorem respond_laws (a : Answer) (s : State) : LawsKept s (respond a s) := by
  cases a <;> exact .same rfl

theorem answerHeld_laws (a : Answer) (s : State) : LawsKept s (answerHeld a s) := by
  unfold answerHeld
  split
  · exact respond_laws a s
  · exact .refl s

theorem settleReply_laws (s : State) : LawsKept s (settleReply s) := answerHeld_laws _ s

theorem offerObservation_laws (o : Observation) (s : State) : LawsKept s (offerObservation o s) := by
  unfold offerObservation
  split
  · split
    · exact .same rfl
    · split
      · exact .refl s
      · exact .same rfl
  · exact .refl s

theorem noticeAfter_laws (before : SupplyMonitor) (s : State) : LawsKept s (noticeAfter before s) := by
  unfold noticeAfter
  split
  · exact abandonAttempt_laws s
  · exact .refl s

theorem noteStart_laws (b : Body) (s : State) : LawsKept s (noteStart b s) := by
  have hrestart : LawsKept s (restartSettle s) := by
    unfold restartSettle
    split
    · exact .refl s
    · exact .same rfl
  unfold noteStart
  split
  · split
    · exact hrestart.trans (noticeAfter_laws ..)
    · exact .refl s
  · exact .refl s

theorem releaseShedHold_laws (s : State) : LawsKept s (releaseShedHold s) := by
  unfold releaseShedHold
  split
  · exact .same rfl
  · exact .refl s

theorem raiseAtEvaluation_laws (s : State) : LawsKept s (raiseAtEvaluation s) :=
  (raiseIf_laws ..).trans ((raiseIf_laws ..).trans (raiseIf_laws ..))

theorem lineError_laws (k : LineError) (s : State) : LawsKept s (lineError k s) := by
  unfold lineError
  split
  · exact (raise_laws ..).after (.same rfl)
  · exact .refl s

theorem attend_laws (s : State) : LawsKept s (attend s) := .same rfl

theorem passTo_laws (n : Nat) (s : State) : LawsKept s (passTo n s) := .same rfl

theorem passToExpiry_laws (timer : Timer) (limit : Nat) (s : State) : LawsKept s (passToExpiry timer limit s) := by
  cases timer <;> exact .same rfl

/-! ### The line (R79, R81) -/

/-- The report of an activity leaves the laws that the line itself leaves. -/
theorem setLine_lawsOf {u : LineUnit} {s : State} (hline : LawsKept s { s with line := u }) : LawsKept s (setLine u s) := by
  unfold setLine
  split
  · unfold reportActivity
    refine (abandonAttempt_laws _).after (hline.trans (.same ?_))
    rfl
  · exact hline

/-- The line read on with the message on its way out. -/
theorem setLine_laws {u : LineUnit} {s : State} (hu : u.transmitter = s.line.transmitter) : LawsKept s (setLine u s) :=
  setLine_lawsOf (.same (by simp only [lawView, hu]; rfl))

/-- The line of a driving car. -/
theorem setLine_driving_laws (u : LineUnit) {s : State} (hd : s.seq.state.driving = true) : LawsKept s (setLine u s) :=
  setLine_lawsOf (.driving hd rfl rfl id)

/-- The transmitter idle. -/
theorem quietLine_laws {u : LineUnit} (s : State) (hu : u.transmitter = none) : LawsKept s { s with line := u } :=
  ⟨rfl, .inl rfl, fun _ ⟨ha, hr, hc, hd, _⟩ => ⟨ha, hr, hc, hd, hu⟩, id, fun _ _ => rfl⟩

theorem LineUnit.follow_transmitter (stop : LineUnit → LineChange → Bool) (changes : List LineChange) (u : LineUnit) :
    (u.follow stop changes).transmitter = u.transmitter := by
  obtain ⟨-, -, h, -⟩ := u.follow_keeps stop changes
  exact h

theorem LineUnit.readOn_transmitter (t : Nat) (u : LineUnit) : (u.readOn t).transmitter = u.transmitter := by
  obtain ⟨-, -, h, -⟩ := u.readOn_keeps t
  exact h

theorem LineUnit.othersChange_transmitter (u : LineUnit) (c : LineChange) :
    (u.othersChange c).transmitter = u.transmitter := by
  obtain ⟨-, -, -, h, -⟩ := u.othersChange_drive c
  exact h

theorem beginActivity_laws (s : State) : LawsKept s (beginActivity s) :=
  setLine_laws (LineUnit.othersChange_transmitter ..)

end Sys2Proof.Machine
end
section
/-!
A car under supply with its run permit negated, and one held with nothing on its way out (O18): from the first every change of state
is lawful, and the second is what a departure leaves.
-/

namespace Sys2Proof.Machine

/-! ### A car under supply -/

/-- What the laws ask of a car under supply, whatever its drive lines. -/
structure OnDuty (s : State) : Prop where
  released : inReset s = false
  supplied : s.seq.state.supplied = true
  silent : s.seq.state = .fallback → OutboundClear s
  joining : s.seq.state = .joining → gait s = none
  unadmitted : ∀ v, gait s = some (.pending, v) → v = none
  emop : s.seq.emop = true
  shdn : s.seq.shdn = (s.seq.state == .shedPending)
  isOpen : s.roster.isOpen = true

/-- RUNP is negated and SPD at code 0. -/
structure Stopped (s : State) : Prop extends OnDuty s where
  runp : s.seq.runp = false
  spd : s.seq.spd = .p25

theorem Lawful.onDuty {s : State} (h : Lawful s) (hs : s.seq.state.supplied = true) : OnDuty s where
  released := h.released
  supplied := hs
  silent hf := h.silent (by rw [hf]; rfl)
  joining hj := h.noTrip (by rw [hj]; rfl)
  unadmitted := h.unadmitted
  emop := h.emergency.trans (SeqState.session_of_supplied hs)
  shdn := h.shed
  isOpen := (h.roster fun hi => by rw [hi] at hs; cases hs).trans (SeqState.opensRoster_of_supplied hs)

theorem Lawful.stopped {s : State} (h : Lawful s) (hs : s.seq.state.supplied = true) (hp : s.seq.runp = false) : Stopped s :=
  { h.onDuty hs with runp := hp, spd := h.stand (SeqState.session_of_supplied hs) hp }

/-- Outside the states in which a run may be made RUNP is negated. -/
theorem Lawful.negated {s : State} (h : Lawful s) (hs : s.seq.state.session = true) (hr : s.seq.state.runs = false) :
    s.seq.runp = false := by
  refine Bool.eq_false_iff.mpr fun hp => ?_
  obtain ⟨hruns, -⟩ := h.run hs hp
  rw [hr] at hruns
  cases hruns

theorem Lawful.stopped_at {s : State} (h : Lawful s) (hs : s.seq.state.supplied = true) (hr : s.seq.state.runs = false) :
    Stopped s := h.stopped hs (h.negated (SeqState.session_of_supplied hs) hr)

/-- A record that is not RUNNING has no run permit. -/
theorem Lawful.stopped_trip {s : State} (h : Lawful s) (hs : s.seq.state.supplied = true)
    (ht : ∀ x, s.seq.trip = some x → x.phase ≠ .running) : Stopped s := by
  refine h.stopped hs (Bool.eq_false_iff.mpr fun hp => ?_)
  obtain ⟨-, -, v, hg, -⟩ := h.run (SeqState.session_of_supplied hs) hp
  obtain ⟨x, hx, hphase, -⟩ := exists_of_gait hg
  exact ht x hx hphase

/-- Nor has a car whose CLAIM is on its way. -/
theorem Lawful.stopped_claim {s : State} (h : Lawful s) (hs : s.seq.state.supplied = true)
    (hc : s.con.attempt.serves .claim = true) : Stopped s := by
  refine h.stopped hs (Bool.eq_false_iff.mpr fun hp => ?_)
  obtain ⟨-, hclaim, -⟩ := h.run (SeqState.session_of_supplied hs) hp
  rw [hc] at hclaim
  cases hclaim

theorem Lawful.tripless {s : State} (h : Lawful s) {x : Trip} (hx : s.seq.trip = some x) : s.seq.state.tripless = false := by
  refine Bool.eq_false_iff.mpr fun ht => ?_
  rw [gait_none.mp (h.noTrip ht)] at hx
  cases hx

theorem OnDuty.kept {s t : State} (h : OnDuty s) (g : LawsKept s t) : OnDuty t where
  released := g.held.trans h.released
  supplied := g.state ▸ h.supplied
  silent hf :=
    have hs : s.seq.state = .fallback := g.state.symm.trans hf
    g.silent (by rw [hs]; rfl) (h.silent hs)
  joining hj := g.gait_none (h.joining (g.state ▸ hj))
  unadmitted := g.unadmitted h.unadmitted
  emop := g.emop.trans h.emop
  shdn := by rw [g.shdn, g.state, h.shdn]
  isOpen := g.isOpen.trans h.isOpen

theorem Stopped.kept {s t : State} (h : Stopped s) (g : LawsKept s t) : Stopped t :=
  { h.toOnDuty.kept g with runp := g.runp.trans h.runp, spd := g.spd.trans h.spd }

/-- In a run state the laws hold of a RUNNING record at its pace. -/
theorem OnDuty.lawful_running {s : State} (h : OnDuty s) {v : Option SpeedStep} (hr : s.seq.state.runs = true)
    (hp : s.seq.runp = true) (hg : gait s = some (.running, v)) (hv : s.seq.spd = v.getD .p25)
    (hc : s.con.attempt.serves .claim = false) : Lawful s where
  released := h.released
  silent hd := h.silent ((SeqState.supplied_iff.mp h.supplied).resolve_left (by simp [hd]))
  noTrip ht := h.joining (SeqState.joining_of_tripless h.supplied ht)
  dormant hd := by simp [hd, SeqState.runs] at hr
  utility hs := by simp [SeqState.session_of_supplied h.supplied] at hs
  run _ _ := ⟨hr, hc, v, hg, hv⟩
  stand _ hn := by simp [hp] at hn
  permits _ := hp
  unadmitted := h.unadmitted
  emergency := h.emop.trans (SeqState.session_of_supplied h.supplied).symm
  shed := h.shdn
  roster _ := h.isOpen.trans (SeqState.opensRoster_of_supplied h.supplied).symm
  standing hd hf := absurd ((SeqState.supplied_iff.mp h.supplied).resolve_left (by simp [hd])) hf

theorem Stopped.lawful {s : State} (h : Stopped s) (hn : s.seq.state.permits = false) : Lawful s where
  released := h.released
  silent hd := h.silent ((SeqState.supplied_iff.mp h.supplied).resolve_left (by simp [hd]))
  noTrip ht := h.joining (SeqState.joining_of_tripless h.supplied ht)
  dormant hd := absurd h.supplied (by rw [hd]; exact Bool.noConfusion)
  utility hs := by simp [SeqState.session_of_supplied h.supplied] at hs
  run _ hp := by simp [h.runp] at hp
  stand _ _ := h.spd
  permits hp := by simp [hn] at hp
  unadmitted := h.unadmitted
  emergency := h.emop.trans (SeqState.session_of_supplied h.supplied).symm
  shed := h.shdn
  roster _ := h.isOpen.trans (SeqState.opensRoster_of_supplied h.supplied).symm
  standing hd hf := absurd ((SeqState.supplied_iff.mp h.supplied).resolve_left (by simp [hd])) hf

/-! ### The trip record and the state of a stopped car (R134, R118) -/

theorem OnDuty.goTo {s : State} (h : OnDuty s) {st : SeqState} (hd : st.driving = true) (hj : st ≠ .joining) :
    OnDuty (goTo st s) := by
  rw [goTo_eq]
  refine ⟨h.released, SeqState.supplied_of_driving hd, ?_, fun hst => absurd hst hj, h.unadmitted, h.emop, ?_, h.isOpen⟩
  · rintro rfl
    cases hd
  · dsimp only
    split
    · rename_i hst
      exact hst ▸ h.shdn
    · rfl

theorem Stopped.goTo {s : State} (h : Stopped s) {st : SeqState} (hd : st.driving = true) (hj : st ≠ .joining) :
    Stopped (goTo st s) :=
  { h.toOnDuty.goTo hd hj with runp := by simpa using h.runp, spd := by rw [goTo_eq]; exact h.spd }

theorem OnDuty.stopRun {s : State} (h : OnDuty s) : Stopped (stopRun s) :=
  { released := h.released, supplied := h.supplied, silent := h.silent, joining := h.joining, unadmitted := h.unadmitted
    emop := h.emop, shdn := h.shdn, isOpen := h.isOpen, runp := rfl, spd := rfl }

theorem OnDuty.endTrip {s : State} (h : OnDuty s) : OnDuty (endTrip s) := by
  obtain ⟨attention, he⟩ := endTrip_eq s
  rw [he]
  exact { released := h.released, supplied := h.supplied, silent := h.silent, joining := fun _ => rfl
          unadmitted := fun _ hv => (nomatch hv), emop := h.emop, shdn := h.shdn, isOpen := h.isOpen }

theorem Stopped.endTrip {s : State} (h : Stopped s) : Stopped (endTrip s) := by
  obtain ⟨attention, he⟩ := endTrip_eq s
  have hduty := h.toOnDuty.endTrip
  rw [he] at hduty ⊢
  exact { hduty with runp := h.runp, spd := h.spd }

/-- A record written that is not PENDING with a step. -/
theorem OnDuty.changeTrip {s : State} (h : OnDuty s) (hj : s.seq.state ≠ .joining) {x : Trip}
    (hx : x.phase = .pending → x.step = none) : OnDuty (changeTrip (some x) s) where
  released := h.released
  supplied := h.supplied
  silent := h.silent
  joining hs := absurd hs hj
  unadmitted v hv := by
    obtain ⟨y, hy, hphase, rfl⟩ := exists_of_gait hv
    cases hy
    exact hx hphase
  emop := h.emop
  shdn := h.shdn
  isOpen := h.isOpen

theorem Stopped.changeTrip {s : State} (h : Stopped s) (hj : s.seq.state ≠ .joining) {x : Trip}
    (hx : x.phase = .pending → x.step = none) : Stopped (changeTrip (some x) s) :=
  { h.toOnDuty.changeTrip hj hx with runp := h.runp, spd := h.spd }

theorem Stopped.createTrip {s : State} (h : Stopped s) (hj : s.seq.state ≠ .joining) (p : Purpose) (c : Nat) (o : Origin)
    (f : Figures) : Stopped (createTrip p c o f s) := by
  unfold Machine.createTrip
  dsimp only
  refine Stopped.changeTrip (h.kept (.same ?_)) ?_ ?_
  · rfl
  · exact hj
  · exact fun _ => rfl

/-! ### The states entered (R118) -/

section

variable {s : State} (h : Stopped s)
include h

theorem Stopped.lawful_goTo {st : SeqState} (hd : st.driving = true) (hj : st ≠ .joining) (hn : st.permits = false) :
    Lawful (Machine.goTo st s) := (h.goTo hd hj).lawful (by simpa using hn)

theorem Stopped.enterServiceIdle : Lawful (enterServiceIdle s) := by
  unfold Machine.enterServiceIdle
  refine Lawful.kept ?_ (markPresence_laws _)
  exact (h.lawful_goTo rfl (by simp) rfl).kept (.same rfl)

theorem Stopped.enterParked : Lawful (enterParked s) := (h.lawful_goTo rfl (by simp) rfl).kept (markPresence_laws _)

theorem Stopped.enterLanded : Lawful (enterLanded s) := by
  unfold Machine.enterLanded
  refine Lawful.kept ?_ (markPresence_laws _)
  exact (h.lawful_goTo rfl (by simp) rfl).kept (.same rfl)

theorem Stopped.enterEvacWait : Lawful (enterEvacWait s) := (h.lawful_goTo rfl (by simp) rfl).kept (markPresence_laws _)

theorem Stopped.enterServiceWait : Lawful (enterServiceWait s) :=
  (h.lawful_goTo rfl (by simp) rfl).kept (markPresence_laws _)

theorem Stopped.returnToOrigin (o : Origin) : Lawful (returnToOrigin o s) := by
  cases o
  case serviceIdle => exact h.enterServiceIdle
  case parked => exact h.enterParked
  all_goals exact h.enterEvacWait

theorem Stopped.postRelease (hd : s.seq.state.driving = true) (r : Release) : Stopped (postRelease r s) :=
  h.kept (postRelease_laws r hd)

theorem Stopped.postShed (hd : s.seq.state.driving = true) (id : Fin 16) : Stopped (postShed id s) :=
  h.kept (postShed_laws id hd)

/-- A wake created with its claim posted (R127). -/
theorem Stopped.createWake (hd : s.seq.state.driving = true) (hj : s.seq.state ≠ .joining) (p : Purpose) (c : Nat)
    (o : Origin) (f : Figures) : Stopped (postClaim (Machine.createTrip p c o f s)) :=
  (h.createTrip hj p c o f).kept (postClaim_laws hd)

theorem Stopped.actOnPosition (hd : s.seq.state.driving = true) (hj : s.seq.state ≠ .joining) : Lawful (actOnPosition s) := by
  unfold Machine.actOnPosition
  dsimp only
  refine Stopped.lawful_goTo ?_ rfl (by simp) rfl
  split
  · exact h.createWake hd hj ..
  · exact h

theorem Stopped.enterAssess : Lawful (enterAssess s) := by
  have ha : Stopped (markPresence (Machine.goTo .assess s)) := (h.goTo rfl (by simp)).kept (markPresence_laws _)
  have hstate : (markPresence (Machine.goTo .assess s)).seq.state = .assess := by simp
  unfold Machine.enterAssess
  dsimp only
  split
  · exact ha.actOnPosition (by rw [hstate]; rfl) (by simp)
  · exact ha.lawful (by rw [hstate]; rfl)

/-- A claim withdrawn or cancelled while SENDING ends as a car with no record (R144, R155). -/
theorem Stopped.endCancelled (hd : s.seq.state.driving = true) (completed : Bool) (x : Trip) :
    Lawful (endCancelled completed x s) := by
  have hend := h.endTrip
  have hd' : (Machine.endTrip s).seq.state.driving = true := by simpa using hd
  unfold Machine.endCancelled
  dsimp only
  generalize Machine.endTrip s = u at hend hd'
  refine Lawful.kept ?_ (answerHeld_laws ..)
  split
  · have hpaid : Stopped { u with seq := { u.seq with shedOwed := false } } := hend.kept (.same rfl)
    exact (hpaid.postShed hd' x.id).enterParked
  · split
    · exact (hend.postRelease hd' _).returnToOrigin _
    · exact hend.returnToOrigin _

end

/-! ### A car held in a session (R129, R130, R158) -/

/-- Nothing on its way out, no record and no standing: what a departure leaves. -/
structure Unladen (s : State) : Prop where
  released : inReset s = false
  clear : OutboundClear s
  noTrip : gait s = none
  standing : ownStand s = (0, 0, 0)

/-- And RUNP and SHDN negated, SPD at code 0, EMOP asserted. -/
structure CarHeld (s : State) : Prop extends Unladen s where
  runp : s.seq.runp = false
  spd : s.seq.spd = .p25
  shdn : s.seq.shdn = false
  emop : s.seq.emop = true

theorem CarHeld.same {s t : State} (h : CarHeld s) (hv : lawView t = lawView s) : CarHeld t := by
  have g := LawsKept.same hv
  simp only [lawView, Prod.mk.injEq] at hv
  obtain ⟨-, hgait, hstanding, hattempt, hrelease, hclaim, hdue, htransmitter⟩ := hv
  exact { released := g.held.trans h.released
          clear := by rw [OutboundClear, hattempt, hrelease, hclaim, hdue, htransmitter]; exact h.clear
          noTrip := hgait.trans h.noTrip, standing := hstanding.trans h.standing, runp := g.runp.trans h.runp
          spd := g.spd.trans h.spd, shdn := g.shdn.trans h.shdn, emop := g.emop.trans h.emop }

theorem leaveService_unladen {s : State} (h : inReset s = false) : Unladen (leaveService s) := by
  obtain ⟨attention, he⟩ := leaveService_eq s
  rw [he]
  exact ⟨h, ⟨rfl, rfl, rfl, rfl, LineUnit.release_transmitter ..⟩, rfl, rfl⟩

theorem Lawful.unladen {s : State} (h : Lawful s) (hd : s.seq.state.driving = false) (ht : s.seq.state.tripless = true) :
    Unladen s :=
  ⟨h.released, h.silent hd, h.noTrip ht, h.standing hd (by intro hf; rw [hf] at ht; cases ht)⟩

theorem Unladen.holdCar {s : State} (h : Unladen s) : CarHeld (holdCar s) :=
  { released := h.released, clear := h.clear, noTrip := h.noTrip, standing := h.standing, runp := rfl, spd := rfl
    shdn := rfl, emop := rfl }

theorem CarHeld.lawful {s : State} (h : CarHeld s) (hs : s.seq.state.session = true) (hd : s.seq.state.driving = false)
    (hr : s.seq.state ≠ .isolated → s.roster.isOpen = s.seq.state.opensRoster) : Lawful s where
  released := h.released
  silent _ := h.clear
  noTrip _ := h.noTrip
  dormant hst := by simp [hst, SeqState.session] at hs
  utility hn := by simp [hs] at hn
  run _ hp := by simp [h.runp] at hp
  stand _ _ := h.spd
  permits hp := by rcases SeqState.permits_iff.mp hp with hst | hst | hst <;> simp [hst, SeqState.driving] at hd
  unadmitted _ hv := by simp [h.noTrip] at hv
  emergency := h.emop.trans hs.symm
  shed := by
    rw [h.shdn]
    exact (beq_eq_false_iff_ne.mpr fun hst => by simp [hst, SeqState.driving] at hd).symm
  roster := hr
  standing _ _ := h.standing

/-- A car held in AWAIT_SUPPLY or NO_SUPPLY. -/
theorem Lawful.carHeld {s : State} (h : Lawful s) (hs : s.seq.state = .awaitSupply ∨ s.seq.state = .noSupply) : CarHeld s := by
  obtain ⟨hd, ht, hsession, hruns, hshed⟩ : s.seq.state.driving = false ∧ s.seq.state.tripless = true ∧
      s.seq.state.session = true ∧ s.seq.state.runs = false ∧ (s.seq.state == .shedPending) = false := by
    rcases hs with hs | hs <;> rw [hs] <;> exact ⟨rfl, rfl, rfl, rfl, rfl⟩
  have hp := h.negated hsession hruns
  exact { h.unladen hd ht with
    runp := hp, spd := h.stand hsession hp, shdn := h.shed.trans hshed, emop := h.emergency.trans hsession }

theorem CarHeld.goTo {s : State} (h : CarHeld s) {st : SeqState} (hst : st ≠ .shedPending) : CarHeld (goTo st s) := by
  rw [goTo_eq]
  exact { released := h.released, clear := h.clear, noTrip := h.noTrip, standing := h.standing, runp := h.runp, spd := h.spd
          shdn := by dsimp only; split <;> simp [h.shdn, hst], emop := h.emop }

/-- JOINING opens the roster (R19, R124). -/
theorem CarHeld.enterJoining {s : State} (h : CarHeld s) (hs : s.seq.state ≠ .joining) : Lawful (enterJoining s) := by
  obtain ⟨adm, hold, remarked, he⟩ := enterJoining_eq hs
  rw [he]
  have hstopped : Stopped { joiningBegun s with
      roster := { isOpen := true }, adm := adm, seq := { (joiningBegun s).seq with shedHold := hold }
      con := { (joiningBegun s).con with presenceDue := true, remarked := remarked } } :=
    { released := h.released, supplied := rfl, silent := fun hf => (nomatch hf), joining := fun _ => h.noTrip
      unadmitted := fun v hv => absurd (h.noTrip.symm.trans hv) (by simp), emop := h.emop, shdn := rfl, isOpen := rfl
      runp := h.runp, spd := h.spd }
  exact hstopped.lawful rfl

theorem Unladen.awaiting {s : State} (h : Unladen s) (window : Nat) : CarHeld (awaiting window s) :=
  { released := h.released, clear := h.clear, noTrip := h.noTrip, standing := h.standing, runp := rfl, spd := rfl
    shdn := rfl, emop := rfl }

theorem Unladen.enterAwaitSupply {s : State} (h : Unladen s) (hs : s.seq.state ≠ .awaitSupply)
    (hclosed : s.roster.isOpen = false) (window : Nat) : Lawful (enterAwaitSupply window s) := by
  rw [enterAwaitSupply_eq hs]
  split
  · exact (h.awaiting window).enterJoining (by simp [Machine.awaiting])
  · exact (h.awaiting window).lawful rfl rfl fun _ => hclosed

/-- The start window expires (R122, R123). -/
theorem CarHeld.enterNoSupply {s : State} (h : CarHeld s) (hclosed : s.roster.isOpen = false) : Lawful (enterNoSupply s) := by
  have hheld : CarHeld (Machine.goTo .noSupply { s with seq := { s.seq with startWindow := .stopped } }) := by
    refine CarHeld.goTo ?_ (by simp)
    exact h.same rfl
  unfold Machine.enterNoSupply
  dsimp only
  split
  · exact hheld.enterJoining (by simp)
  · exact hheld.lawful (by simp [SeqState.session]) (by simp [SeqState.driving]) fun _ => by
      rw [goTo_state, goTo_eq]
      exact hclosed

theorem onSupplyLoss_lawful {s : State} (h : inReset s = false) (hs : s.seq.state ≠ .awaitSupply) : Lawful (onSupplyLoss s) := by
  have hleft := leaveService_unladen h
  have hstate : (leaveService s).seq.state ≠ .awaitSupply := by simpa using hs
  unfold onSupplyLoss
  generalize leaveService s = u at hleft hstate
  dsimp only
  refine Lawful.kept ?_ (settleReply_laws _)
  refine Unladen.enterAwaitSupply ?_ ?_ ?_ _
  · exact ⟨hleft.released, hleft.clear, hleft.noTrip, hleft.standing⟩
  · exact hstate
  · rfl

theorem enterIsolated_lawful {s : State} (h : inReset s = false) : Lawful (enterIsolated s) := by
  have hheld : CarHeld (goTo .isolated { holdCar (leaveService s) with
      supply := { (holdCar (leaveService s)).supply with underTimer := .stopped } }) := by
    refine CarHeld.goTo ?_ (by simp)
    exact (leaveService_unladen h).holdCar.same rfl
  unfold enterIsolated
  refine Lawful.kept ?_ (settleReply_laws _)
  exact hheld.lawful (by simp [SeqState.session]) (by simp [SeqState.driving]) fun hi => absurd (by simp) hi

theorem enterFallback_lawful {s : State} (h : inReset s = false) (hopen : s.roster.isOpen = true) : Lawful (enterFallback s) := by
  have hheld : CarHeld (goTo .fallback { holdCar (leaveService s) with
      seq := { (holdCar (leaveService s)).seq with
        landedMark := (holdCar (leaveService s)).seq.report.position == .atLanding } }) := by
    refine CarHeld.goTo ?_ (by simp)
    exact (leaveService_unladen h).holdCar.same rfl
  unfold enterFallback
  refine Lawful.kept ?_ (settleReply_laws _)
  exact hheld.lawful (by simp [SeqState.session]) (by simp [SeqState.driving]) fun _ => by
    simpa [SeqState.opensRoster] using hopen

/-! ### Outside a session (R120, R163) -/

/-- A car outside a session has its drive lines as TRN reads. -/
theorem Unladen.outside {s : State} (h : Unladen s) (hs : s.seq.state.session = false)
    (hdormant : s.seq.state = .dormant → s.supply.trn = .normal) (hp : s.seq.runp = (s.supply.trn == .normal))
    (hv : s.seq.spd = if s.supply.trn = .normal then .p100 else .p25) (he : s.seq.emop = false) (hd : s.seq.shdn = false)
    (hr : s.roster.isOpen = false) : Lawful s := by
  have hsilent : s.seq.state.permits = false ∧ s.seq.state.opensRoster = false ∧ s.seq.state ≠ .shedPending := by
    revert hs
    cases s.seq.state <;> simp [SeqState.session, SeqState.permits, SeqState.opensRoster, SeqState.driving]
  obtain ⟨hpermits, hopens, hshed⟩ := hsilent
  exact {
    released := h.released
    silent := fun _ => h.clear
    noTrip := fun _ => h.noTrip
    dormant := hdormant
    utility := fun _ => ⟨hp, hv⟩
    run := fun hn => by simp [hs] at hn
    stand := fun hn => by simp [hs] at hn
    permits := fun hn => by simp [hpermits] at hn
    unadmitted := fun _ hg => by simp [h.noTrip] at hg
    emergency := he.trans hs.symm
    shed := hd.trans (beq_eq_false_iff_ne.mpr hshed).symm
    roster := fun _ => hr.trans hopens.symm
    standing := fun _ _ => h.standing }

/-- DORMANT, while TRN reads normal. -/
theorem Unladen.dormant {s : State} (h : Unladen s) (hs : s.seq.state = .dormant) (ht : s.supply.trn = .normal)
    (hp : s.seq.runp = true) (hv : s.seq.spd = .p100) (he : s.seq.emop = false) (hd : s.seq.shdn = false)
    (hr : s.roster.isOpen = false) : Lawful s :=
  h.outside (by rw [hs]; rfl) (fun _ => ht) (by simp [hp, ht]) (by simp [hv, ht]) he hd hr

theorem endSession_lawful {s : State} (h : inReset s = false) (ht : s.supply.trn = .normal) : Lawful (endSession s) := by
  have hleft := leaveService_unladen h
  unfold endSession
  refine Lawful.kept ?_ (settleReply_laws _)
  rw [goTo_eq]
  refine Unladen.dormant ⟨hleft.released, hleft.clear, hleft.noTrip, hleft.standing⟩ rfl (by simpa using ht) rfl rfl rfl ?_ rfl
  dsimp only
  split <;> rfl

end Sys2Proof.Machine
end
section
/-!
The shared operations from a lawful state (O18): the shed, the roster, the supply monitor's events, the reference point, and
the end of the own attempt.
-/

namespace Sys2Proof.Machine

/-! ### Shedding and the roster (R28, R151, R154) -/

theorem enterShedPending_lawful {s : State} (h : Lawful s) (hs : s.seq.state = .serviceRun) : Lawful (enterShedPending s) := by
  have hp : s.seq.runp = true := h.permits (by rw [hs]; rfl)
  obtain ⟨-, hclaim, v, hgait, hv⟩ := h.run (by rw [hs]; rfl) hp
  refine Lawful.kept ?_ (markPresence_laws _)
  have hduty : OnDuty (goTo .shedPending s) := (h.onDuty (by rw [hs]; rfl)).goTo rfl (by simp)
  rw [goTo_eq] at hduty ⊢
  exact hduty.lawful_running rfl hp hgait hv hclaim

theorem Lawful.shedCar {s : State} (h : Lawful s) : Lawful (shedCar s) := by
  unfold Machine.shedCar
  split
  case h_1 hs =>
    have hidle : Stopped { s with seq := { s.seq with idleTimer := .stopped } } :=
      (h.stopped_at (by rw [hs]; rfl) (by rw [hs]; rfl)).kept (.same rfl)
    exact (hidle.postShed (by rw [hs]; rfl) _).enterParked
  case h_2 hs =>
    split
    · exact h.kept (oweShed_laws s)
    · have hwithdrawn := (h.stopped_at (by rw [hs]; rfl) (by rw [hs]; rfl)).kept (withdrawClaim_laws s)
      exact (hwithdrawn.endTrip.postShed (by simp [hs, SeqState.driving]) _).enterParked
  case h_3 hs => exact enterShedPending_lawful h hs
  case h_4 hs => exact h.kept (postShed_laws _ (by rw [hs]; rfl))
  case h_5 hs => exact h.kept (postShed_laws _ (by rw [hs]; rfl))
  case h_6 => exact h

theorem Lawful.shedTest {s : State} (h : Lawful s) : Lawful (shedTest s) := by
  have hraised (v : ShedView) (p : Bool) : Lawful (raiseIf p .saturate { s with adm := { s.adm with shedView := v } }) :=
    h.kept ((raiseIf_laws ..).after (.same rfl))
  unfold Machine.shedTest
  split
  · exact h
  · dsimp only
    split
    · exact (hraised _ _).shedCar
    · exact hraised _ _

theorem Lawful.changeRoster {s : State} (h : Lawful s) {r : Roster} (hr : r.isOpen = s.roster.isOpen) :
    Lawful (changeRoster r s) := by
  have hwritten : Lawful { s with roster := r } := h.kept (.same (by simp only [lawView, columns, hr]; rfl))
  rcases changeRoster_cases r s with ⟨-, he⟩ | ⟨-, he⟩ <;> rw [he]
  · exact hwritten
  · exact (hwritten.kept (releaseShedHold_laws _)).shedTest

/-! ### The supply monitor's events (R65 to R75) -/

theorem Lawful.supplyEdge {s : State} (h : Lawful s) (before : SupplyMonitor) : Lawful (supplyEdge before s) := by
  unfold Machine.supplyEdge
  split
  · unfold onSupplyGood
    split
    · rename_i hs
      exact (h.carHeld (.inl hs)).enterJoining (by simp [hs])
    · rename_i hs
      exact (h.carHeld (.inr hs)).enterJoining (by simp [hs])
    · exact h
  · split
    · rename_i hlost
      refine onSupplyLoss_lawful h.released fun hs => ?_
      simp [hs, SeqState.supplied, SeqState.driving] at hlost
    · exact h

theorem Lawful.becomeClass {s : State} (h : Lawful s) (c : FreqClass) : Lawful (becomeClass c s) := by
  have htrn : (s.supply.withClass c s.seq.state.supplied s.now).trn = s.supply.trn := by
    unfold SupplyMonitor.withClass
    split <;> rfl
  have hclass : LawsKept s { s with supply := s.supply.withClass c s.seq.state.supplied s.now } :=
    .same (by simp only [lawView, columns, htrn]; rfl)
  exact (h.kept (hclass.trans (noticeAfter_laws ..))).supplyEdge _

theorem Lawful.becomeAbsent {s : State} (h : Lawful s) : Lawful (becomeAbsent s) := by
  have hended : Lawful { s with supply := { s.supply with train := none, absenceTimer := .stopped } } := h.kept (.same rfl)
  exact hended.becomeClass _

theorem Lawful.reformCap {s : State} (h : Lawful s) : Lawful (reformCap s) := by
  have hformed : Lawful (noticeAfter s.supply
      { s with supply := { s.supply with capHeld := capacityOf s, holdTimer := .running s.now } }) :=
    h.kept ((noticeAfter_laws ..).after (.same rfl))
  unfold Machine.reformCap
  dsimp only
  split
  · exact h
  · split
    · exact hformed.shedTest
    · exact hformed

/-! ### The reference point (R46, R107) -/

/-- A record that is evaluated is not RUNNING, and its car is in a driving state. -/
theorem Lawful.evaluable {s : State} (h : Lawful s) {x : Trip} (hx : s.seq.trip = some x) (he : evaluable s x = true) :
    Stopped s := by
  refine h.stopped_trip (SeqState.supplied_of_trip (h.tripless hx)) fun y hy hrunning => ?_
  rw [hx] at hy
  cases hy
  rcases evaluable_live he with hp | hp <;> rw [hrunning] at hp <;> cases hp

theorem Lawful.evaluate {s : State} (h : Lawful s) : Lawful (evaluate s) := by
  rcases evaluate_cases s with he | ⟨x, hx, hevaluable, he⟩ <;> rw [he]
  · exact h
  have hstopped := h.evaluable hx hevaluable
  have hviewed : LawsKept s { raiseAtEvaluation s with
      adm := { (raiseAtEvaluation s).adm with
        view := viewAfter s (decideTrip s x)
        patience := patienceAfter s.adm.patience (decideTrip s x).outcome x.cls s.now } } :=
    (raiseAtEvaluation_laws s).trans (.same rfl)
  unfold evaluateTrip
  dsimp only
  split
  · have hemptied (u : State) : LawsKept u { u with
        con := { u.con with claimSlot := none }
        adm := { u.adm with view := { u.adm.view with exceeded := true } }
        link := { u.link with reason := .exceedsCapacity, detail := x.id.val } } :=
      ⟨rfl, .inl rfl, fun _ ⟨ha, hr, _, hd, hl⟩ => ⟨ha, hr, rfl, hd, hl⟩, id, fun _ _ => rfl⟩
    exact ((hstopped.kept hviewed).kept (hemptied _)).endTrip.returnToOrigin _
  · exact h.kept hviewed

/-- A record that an offer was made for is not RUNNING when the choice is made. -/
theorem admittedOffer_phase {s : State} {o : Option SpeedStep × StepFigures} (ho : admittedOffer s = some o) :
    ∀ x, (Machine.evaluate s).seq.trip = some x → x.phase ≠ .running := by
  intro x hx hrunning
  rcases (evaluate_leaves s).trip with ht | ht
  · rcases admittedOffer_live ho x (ht ▸ hx) with hp | hp <;> rw [hrunning] at hp <;> cases hp
  · rw [ht] at hx
    cases hx

/-- The CLAIM chosen: its record is ARMED with the step offered (R108, R135). -/
theorem Stopped.chooseClaim {s : State} (h : Stopped s) (hd : s.seq.state.driving = true) (hj : s.seq.state ≠ .joining)
    (n : Nat) (x : Trip) (o : Option SpeedStep × StepFigures) : Stopped (chooseClaim n x o s) where
  released := h.released
  supplied := h.supplied
  silent hf := absurd hd (by simp [show s.seq.state = .fallback from hf, SeqState.driving])
  joining hs := absurd hs hj
  unadmitted v hv := nomatch hv
  emop := h.emop
  shdn := h.shdn
  isOpen := h.isOpen
  runp := h.runp
  spd := h.spd

theorem Lawful.chooseSlot {s : State} (h : Lawful s) (n : Nat) {offer : Option (Option SpeedStep × StepFigures)}
    (ho : ∀ o, offer = some o → ∀ x, s.seq.trip = some x → x.phase ≠ .running) : Lawful (chooseSlot n offer s) := by
  rcases chooseSlot_cases n offer s with he | ⟨hm, hchosen⟩
  · rw [he]
    exact h
  obtain ⟨-, -, hd, -⟩ := (mayChoose_iff s).mp hm
  rcases hchosen with ⟨r, -, he⟩ | ⟨-, p, o, x, -, hoffer, hx, he⟩ | ⟨-, hdue, he⟩ <;> rw [he]
  · exact h.kept (.driving hd rfl rfl fun hc => nomatch hc)
  · have hstopped := h.stopped_trip (SeqState.supplied_of_driving hd) (ho o hoffer)
    have hj : s.seq.state ≠ .joining := fun hj => by simpa [hj, SeqState.tripless] using h.tripless hx
    refine (hstopped.chooseClaim hd hj n x o).lawful (Bool.eq_false_iff.mpr fun hp => ?_)
    have hrunp := h.permits hp
    rw [hstopped.runp] at hrunp
    cases hrunp
  · rw [choosePresence_due n hdue]
    exact h.kept (.driving hd rfl rfl fun hc => nomatch hc)

theorem Lawful.referencePoint {s : State} (h : Lawful s) (n : Nat) : Lawful (referencePoint n s) := by
  have hstarted : Lawful (atReference n s) := h.kept (.same rfl)
  rw [referencePoint_eq]
  exact hstarted.evaluate.chooseSlot n fun o ho => admittedOffer_phase ho

/-! ### The end of the own attempt (R113, R114, R136, R144) -/

/-- An attempt in hand stands only in a driving state (R116). -/
theorem Lawful.driving_of_attempt {s : State} (h : Lawful s) (ha : s.con.attempt ≠ .none) : s.seq.state.driving = true := by
  by_contra hd
  obtain ⟨hnone, -⟩ := h.silent (by simpa using hd)
  exact ha hnone

/-- A stopped car is in no state that asserts RUNP. -/
theorem Lawful.permits_stopped {s : State} (h : Lawful s) (hp : s.seq.runp = false) : s.seq.state.permits = false := by
  refine Bool.eq_false_iff.mpr fun hpermits => ?_
  rw [h.permits hpermits] at hp
  cases hp

/-- The RELEASE that an ENDING record waited for ends it (R142). -/
theorem Lawful.dropEnding {s : State} (h : Lawful s) (hd : s.seq.state.driving = true) :
    Lawful (if tripIn .ending s then changeTrip none s else s) := by
  split
  case isFalse => exact h
  rename_i he
  have hstopped : Stopped s := by
    refine h.stopped_trip (SeqState.supplied_of_driving hd) fun x hx hrunning => ?_
    simp [tripIn, hx, hrunning] at he
  refine Stopped.lawful ?_ (h.permits_stopped hstopped.runp)
  exact { released := h.released, supplied := hstopped.supplied, silent := hstopped.silent, joining := fun _ => rfl
          unadmitted := fun _ hv => (nomatch hv), emop := hstopped.emop, shdn := hstopped.shdn, isOpen := hstopped.isOpen
          runp := hstopped.runp, spd := hstopped.spd }

theorem Lawful.completeRelease {s : State} (h : Lawful s) (hd : s.seq.state.driving = true) (r : Release) :
    Lawful (completeRelease r s) := by
  have hstood (c : ContentionUnit) (hc : c.attempt = .none) : LawsKept s (standingFromRelease r { s with con := c }) := by
    unfold standingFromRelease
    split <;> exact .ended hd rfl rfl hc
  unfold Machine.completeRelease
  exact (h.kept (hstood _ rfl)).dropEnding (by simpa using hd)

/-- A run starts from a stopped car with no attempt (R136). -/
theorem Stopped.startRun {s : State} (h : Stopped s) (ha : s.con.attempt = .none) (x : Trip) :
    Lawful (startRun x s) := by
  have hruns : x.purpose.runState.runs = true ∧ x.purpose.runState.driving = true ∧ x.purpose.runState ≠ .joining := by
    cases x.purpose <;> simp [Purpose.runState, SeqState.runs, SeqState.driving]
  obtain ⟨hr, hdriving, hj⟩ := hruns
  have hduty : OnDuty (Machine.goTo x.purpose.runState s) := h.toOnDuty.goTo hdriving hj
  rw [goTo_eq] at hduty
  rw [startRun_eq]
  refine OnDuty.lawful_running (v := x.step) ?_ hr rfl rfl rfl (by rw [ha]; rfl)
  exact { released := hduty.released, supplied := hduty.supplied, silent := hduty.silent, joining := fun hs => absurd hs hj
          unadmitted := fun _ hv => (nomatch hv), emop := hduty.emop, shdn := hduty.shdn, isOpen := hduty.isOpen }

theorem Stopped.finishWake {s : State} (h : Stopped s) (x : Trip) : Lawful (finishWake x s) := by
  unfold Machine.finishWake
  dsimp only
  split
  · exact h.endTrip.enterLanded
  · exact h.endTrip.enterServiceIdle

theorem Stopped.tripAfterClaim {s : State} (h : Stopped s) (hd : s.seq.state.driving = true) (hn : s.seq.state.permits = false)
    (ha : s.con.attempt = .none) (withdrawn : Bool) : Lawful (tripAfterClaim withdrawn s) := by
  have hcleared : Stopped { s with
      seq := { s.seq with agingTimer := .stopped }
      adm := { s.adm with patience := .stopped, ownDemand := none } } := h.kept (.same rfl)
  unfold Machine.tripAfterClaim
  dsimp only
  split
  · exact hcleared.lawful hn
  · split
    · exact hcleared.endCancelled hd true _
    · split
      · exact hcleared.startRun ha _
      · exact hcleared.finishWake _

theorem Lawful.completeClaim {s : State} (h : Lawful s) {c : Claim} (ha : s.con.attempt = .sending (.claim c)) :
    Lawful (completeClaim c s) := by
  have hd := h.driving_of_attempt (by simp [ha])
  have hstopped := h.stopped_claim (SeqState.supplied_of_driving hd) (by rw [ha]; rfl)
  have hafter (con : ContentionUnit) (hc : con.attempt = .none) (withdrawn : Bool) :
      Lawful (tripAfterClaim withdrawn (standingFromClaim c (noteClaim { s with con := con }))) := by
    have hcompleted : LawsKept s (standingFromClaim c (noteClaim { s with con := con })) := .ended hd rfl rfl hc
    exact (hstopped.kept hcompleted).tripAfterClaim hd (h.permits_stopped hstopped.runp) hc withdrawn
  unfold Machine.completeClaim
  exact (hafter _ rfl _).changeRoster (by simp)

theorem Lawful.completeOwn {s : State} (h : Lawful s) {b : Body} (ha : s.con.attempt = .sending b) :
    Lawful (completeOwn b s) := by
  have hd := h.driving_of_attempt (by simp [ha])
  have hoffered : LawsKept s (offerObservation (observationOf { station := s.station, body := b } true)
      { s with line := { s.line with transmitter := none } }) := (quietLine_laws s rfl).trans (offerObservation_laws ..)
  have hcon : (offerObservation (observationOf { station := s.station, body := b } true)
      { s with line := { s.line with transmitter := none } }).con = s.con := by simp
  have hstate := hoffered.state
  unfold Machine.completeOwn
  dsimp only
  generalize offerObservation _ _ = u at hoffered hcon hstate
  have hu := h.kept hoffered
  rw [← hcon] at ha
  rw [← hstate] at hd
  refine Lawful.kept ?_ (noteStart_laws ..)
  cases b with
  | release r => exact hu.completeRelease hd r
  | claim c => exact hu.completeClaim ha
  | presence p => exact hu.kept (.driving hd rfl rfl fun ht => nomatch ht)

/-- An attempt that fails keeps the laws; a CLAIM withdrawn ends as cancelled (R114, R115). -/
theorem Lawful.failSlot {s : State} (h : Lawful s) {b : Body} (ha : s.con.attempt = .sending b) : Lawful (failSlot b s) := by
  have hd := h.driving_of_attempt (by simp [ha])
  have hended (c : ContentionUnit) (hc : c.attempt = .none) :
      LawsKept s { s with con := c, line := s.line.release s.now } :=
    .ended hd rfl rfl hc
  unfold Machine.failSlot
  cases b with
  | release r => exact h.kept (hended _ rfl)
  | presence p => exact h.kept (hended _ rfl)
  | claim c =>
    have hstopped := h.stopped_claim (SeqState.supplied_of_driving hd) (by rw [ha]; rfl)
    dsimp only
    split
    · split
      · exact (hstopped.kept (hended _ rfl)).endCancelled hd false _
      · exact h.kept (hended _ rfl)
    · exact h.kept ((hended _ rfl).trans (claimLost_laws _))

theorem Lawful.failAttempt {s : State} (h : Lawful s) : Lawful (failAttempt s) := by
  unfold Machine.failAttempt
  split
  · rename_i b hb
    have hfailed := h.failSlot hb
    dsimp only
    split
    · rename_i hfault
      obtain ⟨-, hd⟩ := hfault
      exact enterFallback_lawful hfailed.released (hfailed.onDuty (SeqState.supplied_of_driving hd)).isOpen
    · exact hfailed
  · exact h

/-! ### The end of an activity (R82, R87, R96) -/

theorem Lawful.deliverMessage {s : State} (h : Lawful s) (m : Message) : Lawful (deliverMessage m s) := by
  unfold Machine.deliverMessage
  refine Lawful.kept ?_ (offerObservation_laws ..)
  refine Lawful.kept ?_ (noteStart_laws ..)
  split
  · have hraised : LawsKept s { raise .duplicate s with seq := { (raise .duplicate s).seq with duplicate := true } } :=
      (raise_laws .duplicate s).trans (.same rfl)
    unfold takeDuplicate
    dsimp only
    split
    · exact enterIsolated_lawful (h.kept hraised).released
    · exact h.kept hraised
  · refine h.changeRoster ?_
    cases hopen : s.roster.isOpen
    · rw [deliverToRoster_closed hopen, hopen]
    · rw [deliverToRoster_open hopen]
      simp [hopen]

theorem Lawful.judgeAndDeliver {s : State} (h : Lawful s) (u : LineUnit) : Lawful (judgeAndDeliver u s) := by
  unfold Machine.judgeAndDeliver
  split
  · exact h
  · split
    · exact h.kept (lineError_laws ..)
    · exact h.deliverMessage _

theorem Lawful.settleActivity {s : State} (h : Lawful s) (u : LineUnit) : Lawful (settleActivity u s) := by
  unfold Machine.settleActivity
  split
  · rename_i hb
    split
    · exact h.completeOwn hb
    · exact h.failAttempt.judgeAndDeliver u
  · exact h.judgeAndDeliver u

theorem Lawful.endActivity {s : State} (h : Lawful s) (n : Nat) {u : LineUnit} (hu : u.transmitter = s.line.transmitter) :
    Lawful (endActivity n u s) := by
  have hquiet : Lawful { passTo (n + Config.baseGap) s with line := u.quiet } :=
    h.kept (.same (by simp only [lawView, LineUnit.quiet_transmitter, hu]; rfl))
  exact (hquiet.settleActivity u).referencePoint n

end Sys2Proof.Machine
end
section
/-!
The commands from a lawful state (O18), in the order of the table: the requests of the car link, the supply monitor, the
line, and the timers.
-/

namespace Sys2Proof.Machine

/-! ### The requests of the car link -/

theorem octetsArrive_laws (s : State) : LawsKept s (octetsArrive s) := by
  unfold octetsArrive
  split <;> exact .same rfl

theorem discardFrame_laws (s : State) : LawsKept s (discardFrame s) := by
  unfold discardFrame
  dsimp only
  split
  · exact (octetsArrive_laws s).trans (.same rfl)
  · exact octetsArrive_laws s

theorem linkQuiet_laws (s : State) : LawsKept s (linkQuiet s) := by
  unfold linkQuiet
  split <;> exact .same rfl

/-- A request keeps the laws when the judging of it does. -/
theorem Lawful.takeRequest {s : State} (h : Lawful s) {act : State → State × Answer}
    (hact : ∀ u, Lawful u → Lawful (act u).1) (code : Nat) (early : Bool) : Lawful (takeRequest code early act s) := by
  have harrived := h.kept (octetsArrive_laws s)
  have htaken : Lawful { octetsArrive s with
      link := { (octetsArrive s).link with receiver := .idle, reason := .none, detail := 0 } } := harrived.kept (.same rfl)
  unfold Machine.takeRequest
  dsimp only
  split
  · split
    · exact htaken.kept (respond_laws ..)
    · exact (hact _ htaken).kept (respond_laws ..)
  · exact harrived

/-- CONFIGURE leaves UNCONFIGURED as TRN reads (R120). -/
theorem Lawful.leaveUnconfigured {s : State} (h : Lawful s) (hs : s.seq.state = .unconfigured) :
    Lawful (leaveUnconfigured s) := by
  have hunladen := h.unladen (by rw [hs]; rfl) (by rw [hs]; rfl)
  have hclosed : s.roster.isOpen = false := (h.roster (by simp [hs])).trans (by rw [hs]; rfl)
  have hemop : s.seq.emop = false := h.emergency.trans (by rw [hs]; rfl)
  unfold Machine.leaveUnconfigured
  split
  · rename_i ht
    rw [goTo_other (by simp [hs])]
    refine Unladen.dormant ?_ rfl ht rfl rfl hemop rfl hclosed
    exact ⟨hunladen.released, hunladen.clear, hunladen.noTrip, hunladen.standing⟩
  · refine Unladen.enterAwaitSupply ?_ ?_ ?_ _
    rotate_left
    · simp [hs]
    · exact hclosed
    exact ⟨hunladen.released, hunladen.clear, hunladen.noTrip, hunladen.standing⟩

theorem Lawful.judgeConfigure {s : State} (h : Lawful s) (record : List Byte) : Lawful (judgeConfigure record s).1 := by
  unfold Machine.judgeConfigure
  split
  · exact h
  · rename_i hc
    dsimp only
    split
    · exact h
    · unfold acceptConfiguration
      dsimp only
      refine Lawful.leaveUnconfigured (h.kept (.same ?_)) ?_
      · rfl
      · simpa [configured] using hc

theorem Lawful.judgeReadObserved {s : State} (h : Lawful s) : Lawful (judgeReadObserved s).1 := by
  unfold Machine.judgeReadObserved
  split
  · exact h
  · exact h.kept (.same rfl)

/-- A record starts in FALLBACK (R161): a run at code 0, or a wake that ends at once. -/
theorem Stopped.startFallbackTrip {s : State} (h : Stopped s) (hf : s.seq.state = .fallback) : Lawful (startFallbackTrip s) := by
  have hlawful : Lawful s := h.lawful (by rw [hf]; rfl)
  unfold Machine.startFallbackTrip
  split
  · exact hlawful
  · rename_i x hx
    split
    · exact hlawful
    · rename_i hpending
      split
      · have hstep : x.step = none := h.unadmitted _ (by rw [gait_some hx, not_not.mp hpending])
        have hclaim : s.con.attempt.serves .claim = false := by
          obtain ⟨hnone, -⟩ := h.silent hf
          rw [hnone]
          rfl
        refine OnDuty.lawful_running (v := x.step) ?_ ?_ rfl rfl ?_ hclaim
        · exact { released := h.released, supplied := h.supplied, silent := h.silent
                  joining := fun hj => absurd hf (by simp [show s.seq.state = .joining from hj])
                  unadmitted := fun _ hv => (nomatch hv), emop := h.emop, shdn := h.shdn, isOpen := h.isOpen }
        · simp [hf, SeqState.runs]
        · rw [hstep]
          rfl
      · have hended : Stopped (Machine.endTrip s) := h.endTrip
        refine Stopped.lawful (s := { Machine.endTrip s with seq := { (Machine.endTrip s).seq with
          commitment := ((conf (Machine.endTrip s)).stby : Int), claimClass := x.cls, stamp := 0 } }) ?_
          (by simp [hf, SeqState.permits])
        exact { released := hended.released, supplied := hended.supplied, silent := hended.silent, joining := hended.joining
                unadmitted := hended.unadmitted, emop := hended.emop, shdn := hended.shdn, isOpen := hended.isOpen
                runp := hended.runp, spd := hended.spd }

theorem Stopped.startIfOpen {s : State} (h : Stopped s) (hf : s.seq.state = .fallback) : Lawful (startIfOpen s) := by
  unfold Machine.startIfOpen
  split
  · exact h.startFallbackTrip hf
  · exact h.lawful (by rw [hf]; rfl)

theorem Lawful.stopped_none {s : State} (h : Lawful s) (hs : s.seq.state.supplied = true) (ht : s.seq.trip = none) : Stopped s :=
  h.stopped_trip hs fun x hx => by rw [ht] at hx; cases hx

theorem Lawful.reportInFallback {s : State} (h : Lawful s) (hf : s.seq.state = .fallback) (p : Position) :
    Lawful (reportInFallback p s) := by
  unfold Machine.reportInFallback
  split
  · split
    · rename_i hwake
      obtain ⟨-, ht⟩ := hwake
      have hstopped := h.stopped_none (by rw [hf]; rfl) ht
      have hcreated : Stopped (Machine.createTrip .evacuation (evacClass s) .fallback (wakeFigures (conf s)) s) :=
        hstopped.createTrip (by simp [hf]) ..
      dsimp only
      refine Stopped.startIfOpen (hcreated.kept (.same ?_)) ?_
      · rfl
      · exact hf
    · exact h
  · exact h.kept (.same rfl)

theorem Lawful.judgeReport {s : State} (h : Lawful s) (position landing occupancy reserved : Byte) :
    Lawful (judgeReport position landing occupancy reserved s).1 := by
  have hoccupancy (occupied : Bool) (u : State) : LawsKept u (takeOccupancy occupied u) := by
    unfold takeOccupancy
    split
    · exact (followOccupancy_laws _).after (.same rfl)
    · exact .refl u
  unfold Machine.judgeReport
  split
  · exact h
  · rename_i p _ _
    have hnoted : Lawful (lockoutBy p (takeOccupancy (occupancy == 1)
        { s with seq := { s.seq with report := { position := p, landing := landing, fresh := true } } })) :=
      h.kept ((lockoutBy_laws ..).after ((hoccupancy ..).after (.same rfl)))
    unfold acceptWithState takeReport
    dsimp only
    generalize lockoutBy p _ = u at hnoted
    split
    · rename_i hs
      exact (hnoted.stopped_at (by rw [hs]; rfl) (by rw [hs]; rfl)).actOnPosition (by rw [hs]; rfl) (by simp [hs])
    · rename_i hs
      split
      · exact (hnoted.stopped_at (by rw [hs]; rfl) (by rw [hs]; rfl)).actOnPosition (by rw [hs]; rfl) (by simp [hs])
      · exact hnoted
    · rename_i hs
      exact hnoted.reportInFallback hs p
    · exact hnoted
  · exact h

/-- RESTART leaves the car as TRN reads (R131). -/
theorem restartState_lawful {s : State} (h : inReset s = false) : Lawful (restartState s) := by
  unfold restartState
  dsimp only
  split
  · rename_i ht
    rw [goTo_other (by simp [restartValues])]
    exact Unladen.dormant ⟨h, ⟨rfl, rfl, rfl, rfl, rfl⟩, rfl, rfl⟩ rfl ht rfl rfl rfl rfl rfl
  · refine Unladen.enterAwaitSupply ?_ (by simp [restartValues]) rfl _
    exact ⟨h, ⟨rfl, rfl, rfl, rfl, rfl⟩, rfl, rfl⟩

/-- A TRIP-REQUEST is accepted in EVAC_WAIT, SERVICE_IDLE and FALLBACK with no record in hand (R138, R160). -/
theorem tripRequestRefusal_accepts {s : State} (h : tripRequestRefusal s = none) :
    s.seq.trip = none ∧ (s.seq.state = .evacWait ∨ s.seq.state = .serviceIdle ∨ s.seq.state = .fallback) := by
  have hs : s.seq.state = .evacWait ∨ s.seq.state = .serviceIdle ∨ s.seq.state = .fallback := by
    unfold tripRequestRefusal at h
    cases hs : s.seq.state <;> simp [hs] at h ⊢
  refine ⟨by_contra fun ht => ?_, hs⟩
  obtain ⟨x, hx⟩ := Option.ne_none_iff_exists'.mp ht
  rcases hs with hs | hs | hs
  · simp [tripRequestRefusal_record hx (.inl hs)] at h
  · simp [tripRequestRefusal_record hx (.inr hs)] at h
  · simp [tripRequestRefusal_active hx (by simp [hs])] at h

theorem Lawful.acceptTrip {s : State} (h : Lawful s) (ht : s.seq.trip = none)
    (hs : s.seq.state = .evacWait ∨ s.seq.state = .serviceIdle ∨ s.seq.state = .fallback) (dir : Direction) (load : Byte) :
    Lawful (acceptTrip dir load s).1 := by
  have hstopped : Stopped s := h.stopped_none (by rcases hs with hs | hs | hs <;> rw [hs] <;> rfl) ht
  have hposted (hd : s.seq.state.driving = true) (p : Purpose) (c : Nat) (o : Origin) :
      Stopped (postClaim (createTrip p c o (requestedFigures dir load s) s)) :=
    hstopped.createWake hd (by rcases hs with hs | hs | hs <;> simp [hs]) ..
  rw [acceptTrip_eq]
  rcases hs with hs | hs | hs
  · have hrecorded : tripRecorded dir load s =
        postClaim (createTrip .evacuation (evacClass s) .evacWait (requestedFigures dir load s) s) := by
      simp only [tripRecorded, hs]
    have hstate : (tripRecorded dir load s).seq.state = .evacWait := by simp [hrecorded, hs]
    rw [startRecorded_waits (by simp [hstate])]
    exact (hrecorded ▸ hposted (by rw [hs]; rfl) ..).lawful (by rw [hstate]; rfl)
  · have hwaits : Lawful (tripRecorded dir load s) := by
      simp only [tripRecorded, hs]
      refine Stopped.enterServiceWait ((hposted (by rw [hs]; rfl) .service (serviceClass s) .serviceIdle).kept (.same ?_))
      rfl
    have hstate : (tripRecorded dir load s).seq.state = .serviceWait := by simp [tripRecorded, hs, enterServiceWait]
    rw [startRecorded_waits (by simp [hstate])]
    exact hwaits
  · have hrecorded : tripRecorded dir load s =
        createTrip .evacuation (evacClass s) .fallback (requestedFigures dir load s) s := by
      simp only [tripRecorded, hs]
    rw [hrecorded, startRecorded_fallback]
    · exact (hstopped.createTrip (by simp [hs]) ..).startIfOpen hs
    · exact hs

theorem Lawful.judgeTripRequest {s : State} (h : Lawful s) (direction load reserved : Byte) :
    Lawful (judgeTripRequest direction load reserved s).1 := by
  have hload : LawsKept s (loadJudged load s) := raiseIf_laws ..
  cases hr : tripRequestRefusal s with
  | some a =>
    rw [judgeTripRequest_refused hr]
    exact h
  | none =>
    obtain ⟨ht, hs⟩ := tripRequestRefusal_accepts hr
    cases hd : directionOf direction with
    | none =>
      rw [judgeTripRequest_direction hr hd]
      exact h
    | some dir =>
      rw [judgeTripRequest_fields hr hd]
      split_ifs
      · exact h.kept hload
      · exact h.kept hload
      · exact (h.kept hload).acceptTrip (gait_none.mp (hload.gait_none (gait_none.mpr ht))) (hload.state ▸ hs) ..

/-! ### TRIP_CANCEL and TRIP_END (R141, R144) -/

/-- A record PENDING or ARMED is cancelled at once (R144). -/
theorem Lawful.cancelByRecord {s : State} (h : Lawful s) (hf : s.seq.state ≠ .fallback) (tripId : Byte) :
    Lawful (cancelByRecord tripId s).1 := by
  unfold Machine.cancelByRecord
  split
  · exact h
  rename_i x hx
  have hd := SeqState.driving_of_trip (h.tripless hx) hf
  split
  · exact h
  split
  · exact h
  rename_i hrunning
  split
  · refine h.kept ((withdrawClaim_laws _).after (.same ?_))
    simp [lawView, columns, gait, ownStand, inReset, hx]
  · have hstopped : Stopped s := h.stopped_trip (SeqState.supplied_of_driving hd) fun y hy => by
      rw [hx] at hy
      cases hy
      exact hrunning
    exact (hstopped.kept (withdrawClaim_laws s)).endTrip.returnToOrigin _

theorem Lawful.cancelInFallback {s : State} (h : Lawful s) (hf : s.seq.state = .fallback) (tripId : Byte) :
    Lawful (cancelInFallback tripId s).1 := by
  unfold Machine.cancelInFallback
  split
  · exact h
  rename_i x hx
  split
  · exact h
  rename_i hrunning
  split
  · have hstopped : Stopped s := h.stopped_trip (by rw [hf]; rfl) fun y hy => by
      rw [hx] at hy
      cases hy
      exact hrunning
    exact hstopped.endTrip.lawful (by simp [hf, SeqState.permits])
  · exact h

/-- A completion that stands is undone: its run stops, or its wake is left (R144, log 45). -/
theorem Lawful.cancelCompleted {s : State} (h : Lawful s) {x : Trip} (hstands : completionStands x s = true)
    (hf : s.seq.state ≠ .fallback) : Lawful (cancelCompleted x s) := by
  have hundo {u : State} (hu : Stopped u) (hd : u.seq.state.driving = true) (owed : Bool) :
      Lawful (endCancelled true x { u with seq := { u.seq with
        runTimer := .stopped, dwellTimer := .stopped, idleTimer := .stopped, shedOwed := owed } }) := by
    refine Stopped.endCancelled ?_ ?_ true x
    · exact hu.kept (.same rfl)
    · exact hd
  unfold completionStands at hstands
  unfold Machine.cancelCompleted
  dsimp only
  split at hstands
  · obtain ⟨y, hy, -⟩ := Option.map_eq_some_iff.mp (beq_iff_eq.mp hstands)
    have hd := SeqState.driving_of_trip (h.tripless hy) hf
    exact hundo (h.onDuty (SeqState.supplied_of_driving hd)).stopRun hd _
  · rw [Bool.and_eq_true, beq_iff_eq, beq_iff_eq] at hstands
    obtain ⟨-, hs⟩ := hstands
    have hlanded : s.seq.state = .landed ∨ s.seq.state = .serviceIdle := by
      cases hp : x.purpose <;> simp [hs, hp]
    have hd : s.seq.state.driving = true := by rcases hlanded with hs | hs <;> rw [hs] <;> rfl
    have hstopped := h.stopped_at (SeqState.supplied_of_driving hd) (by rcases hlanded with hs | hs <;> rw [hs] <;> rfl)
    exact hundo hstopped hd _

theorem Lawful.judgeTripCancel {s : State} (h : Lawful s) (tripId : Byte) : Lawful (judgeTripCancel tripId s).1 := by
  unfold Machine.judgeTripCancel
  split
  · exact h
  · rename_i hf
    exact h.cancelInFallback hf tripId
  rename_i hf
  split
  · split
    · rename_i hstands
      exact h.cancelCompleted hstands hf
    split
    · exact h
    · exact h.cancelByRecord hf tripId
  · exact h.cancelByRecord hf tripId

theorem OnDuty.stopAtEnd {s : State} (h : OnDuty s) (p : Position) (landing : Byte) : Stopped (stopAtEnd p landing s) := by
  have hreported : OnDuty { s with seq := { s.seq with
      report := { position := p, landing := landing, fresh := true } } } := h.kept (.same rfl)
  unfold Machine.stopAtEnd
  refine OnDuty.stopRun ?_
  exact (hreported.kept (lockoutBy_laws p _)).kept (.same rfl)

theorem Stopped.setEnding {s : State} (h : Stopped s) (hj : s.seq.state ≠ .joining) (x : Trip) : Stopped (setEnding x s) :=
  h.changeTrip hj nofun

theorem Stopped.endRun {s : State} (h : Stopped s) (hd : s.seq.state.driving = true) (hj : s.seq.state ≠ .joining) (x : Trip)
    (p : Position) : Lawful (endRun x p s) := by
  have hposted (r : Release) : Stopped (Machine.setEnding x (Machine.postRelease r s)) :=
    (h.postRelease hd r).setEnding (by simpa using hj) x
  unfold Machine.endRun
  dsimp only
  split
  · exact (hposted _).enterLanded
  · exact (hposted _).enterServiceIdle
  · exact (hposted _).enterServiceIdle
  · exact (hposted _).enterEvacWait

theorem Stopped.endShedRun {s : State} (h : Stopped s) (hd : s.seq.state.driving = true) (hj : s.seq.state ≠ .joining)
    (x : Trip) (p : Position) : Lawful (endShedRun x p s) := by
  have hposted : Stopped (Machine.setEnding x (Machine.postShed x.id s)) :=
    (h.postShed hd x.id).setEnding (by simpa using hj) x
  unfold Machine.endShedRun
  dsimp only
  split
  · exact hposted.enterParked
  · exact hposted.lawful_goTo rfl (by simp) rfl

/-- The standing of a car in FALLBACK is free (R161). -/
theorem LawsKept.fallback {s t : State} (hf : s.seq.state = .fallback) (hcolumns : Machine.columns t = Machine.columns s)
    (hgait : Machine.gait t = Machine.gait s) (hcon : t.con = s.con) (hline : t.line = s.line) : LawsKept s t where
  columns := hcolumns
  gait := .inl hgait
  silent _ hs := by rwa [OutboundClear, hcon, hline]
  claim ht := hcon ▸ ht
  standing _ hn := absurd hf hn

/-- A run ends in FALLBACK with its record (R161). -/
theorem OnDuty.endFallbackRun {s : State} (h : OnDuty s) (hf : s.seq.state = .fallback) : Lawful (endFallbackRun s) := by
  have hdiscarded : OnDuty (discardTrip s) := h.endTrip.kept (.same rfl)
  have hstopped : Stopped (Machine.stopRun (discardTrip s)) := hdiscarded.stopRun
  have hs : (Machine.stopRun (discardTrip s)).seq.state = .fallback := by simpa using hf
  unfold Machine.endFallbackRun
  exact (hstopped.lawful (by rw [hs]; rfl)).kept (.fallback hs rfl rfl rfl rfl)

theorem Lawful.takeTripEnd {s : State} (h : Lawful s) {x : Trip} (hs : s.seq.state.takesTripEnd = true) (p : Position)
    (landing : Byte) : Lawful (takeTripEnd x p landing s) := by
  have hsupplied : s.seq.state.supplied = true := by
    revert hs
    cases s.seq.state <;> simp [SeqState.takesTripEnd, SeqState.supplied, SeqState.driving]
  have hstopped := (h.onDuty hsupplied).stopAtEnd p landing
  have hstate : (stopAtEnd p landing s).seq.state = s.seq.state := by simp
  rw [← hstate] at hs
  unfold Machine.takeTripEnd
  dsimp only
  generalize stopAtEnd p landing s = u at hstopped hs
  split
  · rename_i hf
    exact (hstopped.toOnDuty.endFallbackRun hf).kept (.same rfl)
  · rename_i hst
    exact hstopped.endShedRun (by rw [hst]; rfl) (by simp [hst]) x p
  · rename_i hf hsh
    refine hstopped.endRun ((SeqState.supplied_iff.mp hstopped.supplied).resolve_right hf) ?_ x p
    intro hj
    rw [hj] at hs
    cases hs

theorem Lawful.judgeTripEnd {s : State} (h : Lawful s) (tripId position landing reserved : Byte) :
    Lawful (judgeTripEnd tripId position landing reserved s).1 := by
  unfold Machine.judgeTripEnd
  split
  · exact h
  split
  · exact h
  split
  · exact h
  rename_i htaken
  split
  · exact h
  split
  · exact h
  · exact h.takeTripEnd (by simpa using fun hn => htaken (.inl hn)) ..

/-! ### Wakes and selections (R146, R149, R150) -/

theorem Lawful.wakeCar {s : State} (h : Lawful s) (hs : s.seq.state = .parked) : Lawful (wakeCar s) := by
  have hposted : Stopped (postClaim (Machine.createTrip .service (serviceClass s) .parked (wakeFigures (conf s)) s)) :=
    (h.stopped_at (by rw [hs]; rfl) (by rw [hs]; rfl)).createWake (by rw [hs]; rfl) (by simp [hs]) ..
  unfold Machine.wakeCar
  refine Stopped.enterServiceWait ?_
  exact hposted.kept (.same rfl)

theorem Lawful.judgeServiceSelect {s : State} (h : Lawful s) (value reserved : Byte) :
    Lawful (judgeServiceSelect value reserved s).1 := by
  have hset (b : Bool) : Lawful (setSelected b s) := h.kept (setSelected_laws b s)
  unfold Machine.judgeServiceSelect
  split
  · exact h
  split
  · exact h
  split
  · exact h
  split
  · exact h
  split
  · exact hset false
  split
  · exact h
  split
  · rename_i hs
    split
    · exact h
    · exact (hset true).wakeCar ((setSelected_laws true s).state.trans hs)
  · exact hset true

theorem Lawful.judgeCallEvent {s : State} (h : Lawful s) (source reserved : Byte) :
    Lawful (judgeCallEvent source reserved s).1 := by
  unfold Machine.judgeCallEvent
  split
  · exact h
  split
  · exact h
  split
  · exact h.kept (.same rfl)
  split
  · rename_i hs
    obtain ⟨hs, -⟩ := hs
    split
    · exact h
    · exact h.wakeCar hs
  · exact h

/-! ### The other commands of the link -/

section

variable {s : State} (h : Lawful s)
include h

theorem Lawful.execConfigure (record : List Byte) : NextMeets Lawful (execConfigure record s) := by
  refine .next ?_
  split
  · exact h.takeRequest (fun u hu => hu.judgeConfigure record) ..
  · exact h.kept (discardFrame_laws s)

theorem Lawful.execSense : NextMeets Lawful (execSense s) := by
  refine .next ?_
  split
  · exact (h.kept (octetsArrive_laws s)).kept ((respond_laws ..).after (.same rfl))
  · exact h.kept (octetsArrive_laws s)

theorem Lawful.execRequestDiscarded (cause : DiscardCause) : NextMeets Lawful (execRequestDiscarded cause s) := by
  refine .next ?_
  split
  · exact (h.kept (octetsArrive_laws s)).kept (.same rfl)
  · exact h.kept (discardFrame_laws s)

theorem Lawful.execDiscardQuietExpiry : NextMeets Lawful (execDiscardQuietExpiry s) := by
  unfold Machine.execDiscardQuietExpiry
  split
  · exact .next (h.kept (linkQuiet_laws s))
  · exact .next h

theorem Lawful.execReplySent : NextMeets Lawful (execReplySent s) := by
  unfold Machine.execReplySent
  split
  · exact .next (h.kept (.same rfl))
  · exact .next h

/-! ### The supply monitor (R61 to R73) -/

theorem Lawful.execTrnChange (reading : TrnReading) : NextMeets Lawful (execTrnChange reading s) := .next (h.kept (.same rfl))

theorem Lawful.execGokChange (reading : GokReading) : NextMeets Lawful (execGokChange reading s) := .next (h.kept (.same rfl))

theorem Lawful.execCapChange (code : Fin 8) : NextMeets Lawful (execCapChange code s) := by
  refine .next (h.kept (.same ?_))
  simp only [lawView, columns]
  split_ifs <;> rfl

/-- In a session the laws do not read TRN (R118). -/
theorem Lawful.readTrn (hs : s.seq.state.session = true) (trn : TrnReading) :
    Lawful { s with supply := { s.supply with trn := trn } } :=
  { h with
    dormant := fun hd => by simp [show s.seq.state = .dormant from hd, SeqState.session] at hs
    utility := fun hn => by simp [show s.seq.state.session = false from hn] at hs }

/-- Outside a session RUNP and SPD follow TRN (R118, R120). -/
theorem Lawful.followTrn (hs : s.seq.state.session = false) {runp : Bool} {spd : SpeedStep} {trn : TrnReading}
    (hd : s.seq.state = .dormant → trn = .normal) (hp : runp = (trn == .normal))
    (hv : spd = if trn = .normal then .p100 else .p25) :
    Lawful { s with seq := { s.seq with runp := runp, spd := spd }, supply := { s.supply with trn := trn } } :=
  { h with
    dormant := hd
    utility := fun _ => ⟨hp, hv⟩
    run := fun hn => by simp [show s.seq.state.session = true from hn] at hs
    stand := fun hn => by simp [show s.seq.state.session = true from hn] at hs
    permits := fun hn => by
      rcases SeqState.permits_iff.mp hn with hst | hst | hst <;>
        simp [show s.seq.state = _ from hst, SeqState.session] at hs }

/-- RETRANSFER once TRN reads normal (R120, R163). -/
theorem Lawful.retransfer : Lawful (onRetransfer { s with supply := { s.supply with trn := .normal } }) := by
  unfold Machine.onRetransfer
  dsimp only
  split
  · rename_i hs
    have hfollows : Lawful { s with
        seq := { s.seq with runp := true, spd := .p100 }, supply := { s.supply with trn := .normal } } :=
      h.followTrn (by rw [show s.seq.state = .unconfigured from hs]; rfl) (fun _ => rfl) rfl rfl
    exact hfollows.kept (.same rfl)
  · rename_i hs
    have hn : s.seq.state.session = false := by rw [show s.seq.state = .dormant from hs]; rfl
    obtain ⟨hp, hv⟩ := h.utility hn
    rw [h.dormant hs] at hp hv
    exact (h.followTrn hn (fun _ => rfl) hp hv).kept (.same rfl)
  · exact endSession_lawful h.released rfl

/-- TAKEOVER once TRN reads emergency (R120, R121). -/
theorem Lawful.takeover : Lawful (onTakeover { s with supply := { s.supply with trn := .emergency } }) := by
  unfold Machine.onTakeover
  split
  · rename_i hs
    have hn : s.seq.state.session = false := by rw [show s.seq.state = .unconfigured from hs]; rfl
    exact h.followTrn hn (fun hd => by simp [hd] at hs) rfl rfl
  · rename_i hs
    have hs : s.seq.state = .dormant := hs
    have hunladen := h.unladen (by rw [hs]; rfl) (by rw [hs]; rfl)
    dsimp only
    split
    · exact enterIsolated_lawful h.released
    · refine Unladen.enterAwaitSupply ?_ ?_ ?_ _
      · exact ⟨hunladen.released, hunladen.clear, hunladen.noTrip, hunladen.standing⟩
      · simp [hs]
      · exact (h.roster (by simp [hs])).trans (by rw [hs]; rfl)
  · rename_i hu hd
    exact h.readTrn (SeqState.session_of_ne hu hd) _

theorem Lawful.execTrnDebounceExpiry : NextMeets Lawful (execTrnDebounceExpiry s) := by
  unfold Machine.execTrnDebounceExpiry
  cases ht : s.supply.trnTimer with
  | stopped => exact .next h
  | running since =>
    have hpassed : Lawful { passTo (since + Config.trnDebounce) s with supply := { s.supply with trnTimer := .stopped } } :=
      h.kept (.same rfl)
    refine .next ?_
    simp only [passToExpiry_running]
    split
    · rename_i hraw
      rw [hraw]
      exact hpassed.takeover
    · rename_i hraw
      rw [hraw]
      exact hpassed.retransfer
    · rename_i htakeover hretransfer
      have hsame : s.pins.trn = s.supply.trn := by
        cases hold : s.supply.trn <;> cases hraw : s.pins.trn
        · rfl
        · exact absurd hraw (htakeover hold)
        · exact absurd hraw (hretransfer hold)
        · rfl
      refine hpassed.kept (.same ?_)
      simp only [lawView, columns, show (passTo (since + Config.trnDebounce) s).pins.trn = s.supply.trn from hsame]
      rfl

theorem Lawful.execGokDebounceExpiry : NextMeets Lawful (execGokDebounceExpiry s) := by
  unfold Machine.execGokDebounceExpiry
  split
  · have hpassed := h.kept (passToExpiry_laws s.supply.gokTimer Config.contactDebounce s)
    refine .next (Lawful.supplyEdge (hpassed.kept (.same ?_)) _)
    rfl
  · exact .next h

theorem Lawful.execCapDebounceExpiry : NextMeets Lawful (execCapDebounceExpiry s) := by
  unfold Machine.execCapDebounceExpiry
  split
  · have hpassed := h.kept (passToExpiry_laws s.supply.capTimer Config.contactDebounce s)
    refine .next (Lawful.reformCap (hpassed.kept (.same ?_)))
    rfl
  · exact .next h

theorem Lawful.execFsnPulse (period : Nat) : NextMeets Lawful (execFsnPulse period s) := by
  unfold Machine.execFsnPulse
  split
  · exact .next h
  split
  · exact .next (h.kept (.same rfl))
  split
  · rename_i last _ _
    have habsent : Lawful (Machine.becomeAbsent (passTo (last + Config.absenceTime) s)) :=
      Lawful.becomeAbsent (h.kept (.same rfl))
    exact .next (habsent.kept (.same rfl))
  · refine .next (Lawful.becomeClass ?_ _)
    exact h.kept (.same rfl)

theorem Lawful.execAbsenceExpiry : NextMeets Lawful (execAbsenceExpiry s) := by
  unfold Machine.execAbsenceExpiry
  split
  · exact .next (h.kept (passToExpiry_laws ..)).becomeAbsent
  · exact .next h

theorem Lawful.execInWindowHalfSecond : NextMeets Lawful (execInWindowHalfSecond s) := by
  unfold Machine.execInWindowHalfSecond
  split
  · refine .next (h.kept ((noticeAfter_laws ..).after ?_))
    exact (passToExpiry_laws ..).trans (.same rfl)
  · exact .next h

theorem Lawful.execUnderTimerExpiry : NextMeets Lawful (execUnderTimerExpiry s) := by
  unfold Machine.execUnderTimerExpiry
  split
  · have hpassed := h.kept (passToExpiry_laws s.supply.underTimer Config.underTime s)
    dsimp only
    split
    · exact .next (hpassed.kept (.same rfl))
    · refine .next (Lawful.reformCap (hpassed.kept (.same ?_)))
      rfl
  · exact .next h

theorem Lawful.execCapacityHoldExpiry : NextMeets Lawful (execCapacityHoldExpiry s) := by
  unfold Machine.execCapacityHoldExpiry
  split
  · refine .next (h.kept ((noticeAfter_laws ..).after ?_))
    exact (passToExpiry_laws ..).trans (.same rfl)
  · exact .next h

theorem Lawful.execSettleTimerExpiry : NextMeets Lawful (execSettleTimerExpiry s) := by
  unfold Machine.execSettleTimerExpiry
  split
  · refine .next (h.kept ((noticeAfter_laws ..).after (.same ?_)))
    rfl
  · exact .next h

/-! ### The line and the contention unit -/

theorem Lawful.openReceiver {u : LineUnit} (hu : u.transmitter = s.line.transmitter) : Lawful (openReceiver u s) :=
  h.kept (.same (by simp only [lawView, Machine.openReceiver, hu]; rfl))

theorem Lawful.beginActivity : Lawful (beginActivity s) := h.kept (beginActivity_laws s)

theorem Lawful.execLineActivityStart : NextMeets Lawful (execLineActivityStart s) := by
  have hread := s.line.readOn_transmitter s.now
  have hwithin : Lawful (setLine ((s.line.readOn s.now).edgeWithin s.now) s) :=
    h.kept (setLine_laws ((LineUnit.othersChange_transmitter ..).trans hread))
  unfold Machine.execLineActivityStart
  dsimp only
  split
  · rename_i hr
    rw [h.released] at hr
    cases hr
  split
  · refine .next ?_
    split
    · exact (h.endActivity _ ((LineUnit.sampleTo_same ..).transmitter.trans hread)).beginActivity
    · exact hwithin
  split
  · refine .next ?_
    split
    · exact (h.openReceiver hread).beginActivity
    · exact hwithin
  split
  · exact .next h.beginActivity
  · exact .next h

theorem Lawful.execLongDominantExpiry : NextMeets Lawful (execLongDominantExpiry s) := by
  unfold Machine.execLongDominantExpiry
  split
  · exact .next h
  dsimp only
  split
  · exact .next h
  split
  · refine .next (h.kept ((lineError_laws ..).after ((passTo_laws ..).after (setLine_laws ?_))))
    exact (LineUnit.driveTo_drive ..).transmitter.trans (LineUnit.follow_transmitter ..)
  · exact .next h

theorem Lawful.execEndOfActivity (changes : List LineChange) : NextMeets Lawful (execEndOfActivity changes s) := by
  have htold : Lawful (tell changes s) := h.kept (.same rfl)
  unfold Machine.execEndOfActivity
  split
  · split
    · rename_i hrecognised
      obtain ⟨-, htransmitter, -, -⟩ := LineUnit.recognised_keeps hrecognised
      exact .next (h.endActivity _ htransmitter)
    · exact .next htold
  · exact .next htold

theorem Lawful.execFirstBaseGap : NextMeets Lawful (execFirstBaseGap s) := by
  unfold Machine.execFirstBaseGap
  dsimp only
  split
  · exact .next (h.openReceiver (LineUnit.follow_transmitter ..))
  · exact .next h

theorem Lawful.execRoundClose : NextMeets Lawful (execRoundClose s) := by
  unfold Machine.execRoundClose
  split
  · have hpassed := h.kept (passToExpiry_laws s.con.roundTimer Config.roundLength s)
    refine .next (Lawful.referencePoint (hpassed.kept (.same ?_)) _)
    rfl
  · exact .next h

omit h in
/-- A message that begins is of the kind that waited (R108, R109). -/
theorem handedContent_kind (s : State) (b : Body) : (handedContent s b).kind = b.kind := by
  cases b <;> rfl

theorem Lawful.execSlotExpiry : NextMeets Lawful (execSlotExpiry s) := by
  unfold Machine.execSlotExpiry
  split
  · rename_i b deadline hb _
    dsimp only
    split
    · rename_i hbegins
      obtain ⟨-, -, hd⟩ := hbegins
      refine .next ?_
      refine h.kept ((setLine_driving_laws _ ?_).after (.driving hd rfl rfl ?_))
      · exact hd
      · rw [hb, Attempt.serves, Attempt.serves, handedContent_kind]
        exact id
    · refine .next (h.kept ((abandonAttempt_laws _).after (.same ?_)))
      rfl
  · exact .next h

/-- The own message is cut at a bit (R86). -/
theorem Lawful.failAtBit (x : Sending) (k : Nat) : Lawful (failAtBit x k s) := by
  unfold Machine.failAtBit
  have hcut := (passTo_laws (midBit x.startedAt k) s).trans
    (quietLine_laws _ (LineUnit.release_transmitter (midBit x.startedAt k) s.line))
  exact (h.kept hcut).failAttempt

theorem Lawful.execReadbackMismatch : NextMeets Lawful (execReadbackMismatch s) := by
  unfold Machine.execReadbackMismatch
  split
  · exact .next h
  split
  · exact .next (Lawful.failAtBit (h.kept (setLine_laws (LineUnit.follow_transmitter ..))) ..)
  split
  · refine .next (Lawful.failAtBit (h.kept (setLine_laws ?_)) ..)
    exact (LineUnit.driveTo_drive ..).transmitter.trans (LineUnit.follow_transmitter ..)
  · exact .next h

theorem Lawful.execAttemptJoined : NextMeets Lawful (execAttemptJoined s) := by
  unfold Machine.execAttemptJoined
  split
  · exact .next h
  dsimp only
  split
  · exact .next (h.kept ((passTo_laws ..).after (setLine_laws (LineUnit.follow_transmitter ..)))).failAttempt
  · exact .next h

theorem Lawful.execPresenceDueExpiry : NextMeets Lawful (execPresenceDueExpiry s) := by
  unfold Machine.execPresenceDueExpiry
  split
  · have hpassed := h.kept (passToExpiry_laws s.con.presenceTimer (reportTime s) s)
    refine .next (Lawful.kept (hpassed.kept (.same ?_)) (markPresence_laws _))
    rfl
  · exact .next h

theorem Lawful.execRecordStale (station : Nat) : NextMeets Lawful (execRecordStale station s) := by
  unfold Machine.execRecordStale
  split
  · split
    · refine .next (Lawful.changeRoster (h.kept (.same ?_)) ?_)
      · rfl
      · rfl
    · exact .next h
  · exact .next h

/-! ### The timers of the sequencer -/

theorem Lawful.execStartWindowExpiry : NextMeets Lawful (execStartWindowExpiry s) := by
  unfold Machine.execStartWindowExpiry
  split
  · rename_i hrunning
    obtain ⟨hs, -⟩ := hrunning
    have hpassed := passToExpiry_laws s.seq.startWindow s.seq.startWindowLength s
    have hstate := hpassed.state.trans hs
    refine .next (((h.kept hpassed).carHeld (.inl hstate)).enterNoSupply ?_)
    rw [(h.kept hpassed).roster (by simp [hs]), hstate]
    rfl
  · exact .next h

theorem Lawful.execJoinTimerExpiry : NextMeets Lawful (execJoinTimerExpiry s) := by
  unfold Machine.execJoinTimerExpiry
  split
  · rename_i hrunning
    obtain ⟨hs, -⟩ := hrunning
    have hstopped := (h.stopped_at (by rw [hs]; rfl) (by rw [hs]; rfl)).kept (passToExpiry_laws s.seq.joinTimer (joinTime s) s)
    refine .next (Stopped.enterAssess (hstopped.kept (.same ?_)))
    rfl
  · exact .next h

theorem Lawful.execOccupancyHoldExpiry : NextMeets Lawful (execOccupancyHoldExpiry s) := by
  unfold Machine.execOccupancyHoldExpiry
  split
  · have hpassed := h.kept (passToExpiry_laws s.seq.occupancyHold Config.occupancyHoldTime s)
    refine .next (Lawful.kept (hpassed.kept (.same ?_)) (followOccupancy_laws _))
    rfl
  · exact .next h

/-- The run limit expires in FALLBACK (R161). -/
theorem Lawful.overtimeFallback (hf : s.seq.state = .fallback) : Lawful (overtimeFallback s) :=
  ((h.onDuty (by rw [hf]; rfl)).endFallbackRun hf).kept ((raise_laws ..).trans (setLockout_laws ..))

/-- The run limit expires outside FALLBACK: the car is assessed anew (R143). -/
theorem Lawful.overtimeRun (hd : s.seq.state.driving = true) (x : Trip) : Lawful (overtimeRun x s) := by
  have hlocked : Stopped (setLockout true (raise .overtime (stopRun s))) :=
    (h.onDuty (SeqState.supplied_of_driving hd)).stopRun.kept ((raise_laws ..).trans (setLockout_laws ..))
  have hdiscarded : Stopped (discardTrip (setLockout true (raise .overtime (stopRun s)))) := hlocked.endTrip.kept (.same rfl)
  have hposted (r : Release) := hdiscarded.postRelease (by simpa using hd) r
  unfold Machine.overtimeRun
  refine Stopped.enterAssess ?_
  exact (hposted _).kept (.same rfl)

theorem Lawful.execRunLimitExpiry : NextMeets Lawful (execRunLimitExpiry s) := by
  unfold Machine.execRunLimitExpiry
  split
  · rename_i x hx
    split
    · have hpassed := passToExpiry_laws s.seq.runTimer ((conf s).runLimit * Config.second) s
      refine .next ?_
      split
      · rename_i hf
        exact (h.kept hpassed).overtimeFallback hf
      · rename_i hf
        refine (h.kept hpassed).overtimeRun ?_ x
        rw [hpassed.state] at hf ⊢
        exact SeqState.driving_of_trip (h.tripless hx) hf
    · exact .next h
  · exact .next h

omit h in
theorem Stopped.parkCar {s : State} (h : Stopped s) (hd : s.seq.state.driving = true) : Lawful (parkCar s) :=
  (h.postRelease hd _).enterParked

theorem Lawful.execLandingDwellExpiry : NextMeets Lawful (execLandingDwellExpiry s) := by
  unfold Machine.execLandingDwellExpiry
  split
  · rename_i hrunning
    obtain ⟨hs, -⟩ := hrunning
    have hstopped : Stopped { passToExpiry s.seq.dwellTimer ((conf s).dwell * Config.second) s with
        seq := { (passToExpiry s.seq.dwellTimer ((conf s).dwell * Config.second) s).seq with dwellTimer := .stopped } } :=
      (h.stopped_at (by rw [hs]; rfl) (by rw [hs]; rfl)).kept ((passToExpiry_laws ..).trans (.same rfl))
    refine .next ?_
    dsimp only
    split
    · exact hstopped.enterServiceIdle
    · exact hstopped.parkCar (by simp [hs, SeqState.driving])
  · exact .next h

theorem Lawful.execIdleTimerExpiry : NextMeets Lawful (execIdleTimerExpiry s) := by
  unfold Machine.execIdleTimerExpiry
  split
  · rename_i hrunning
    obtain ⟨hs, -⟩ := hrunning
    have hstopped := (h.stopped_at (by rw [hs]; rfl) (by rw [hs]; rfl)).kept
      (passToExpiry_laws s.seq.idleTimer ((conf s).idleTime * Config.second) s)
    refine .next (Stopped.parkCar (hstopped.kept (.same ?_)) ?_)
    · rfl
    · simp [hs, SeqState.driving]
  · exact .next h

theorem Lawful.execAgingExpiry : NextMeets Lawful (execAgingExpiry s) := by
  unfold Machine.execAgingExpiry
  split
  · have hpassed : Lawful { passToExpiry s.seq.agingTimer ((conf s).agingTime * Config.second) s with
        seq := { (passToExpiry s.seq.agingTimer ((conf s).agingTime * Config.second) s).seq with agingTimer := .stopped } } :=
      h.kept ((passToExpiry_laws ..).trans (.same rfl))
    refine .next ?_
    dsimp only
    split
    · rename_i hx
      split
      · exact hpassed.kept (changeTrip_laws hx rfl)
      · exact hpassed
    · exact hpassed
  · exact .next h

theorem Lawful.execPatienceExpiry : NextMeets Lawful (execPatienceExpiry s) := by
  have hpublished (u : State) : LawsKept u (publishDemand u) := by
    unfold publishDemand
    split
    · exact (attend_laws _).after ((markPresence_laws _).after (.same rfl))
    · exact .refl u
  unfold Machine.execPatienceExpiry
  split
  · refine .next (h.kept ((hpublished _).after (.same ?_)))
    rfl
  · exact .next h

theorem Lawful.execShedHoldExpiry : NextMeets Lawful (execShedHoldExpiry s) := by
  unfold Machine.execShedHoldExpiry
  split
  · exact .next (h.kept (.same rfl))
  · exact .next h

/-! ### The fallback windows (R159, R161) -/

theorem Lawful.execFallbackTripStart : NextMeets Lawful (execFallbackTripStart s) := by
  unfold Machine.execFallbackTripStart
  split
  · rename_i hpending
    obtain ⟨hf, hpending⟩ := hpending
    have hstopped : Stopped s := h.stopped_trip (by rw [hf]; rfl) fun x hx hrunning => by
      simp [tripIn, hx, hrunning] at hpending
    refine .next ?_
    split
    · exact hstopped.startFallbackTrip hf
    · refine Stopped.startFallbackTrip (hstopped.kept (.same ?_)) ?_
      · rfl
      · exact hf
  · exact .next h

theorem Lawful.execOwnWindowClose : NextMeets Lawful (execOwnWindowClose s) := by
  have hclosed (u : State) (hu : Lawful u) (hf : u.seq.state = .fallback) :
      Lawful (if tripIn .running u then u else zeroStanding u) := by
    split
    · exact hu
    · exact hu.kept (.fallback hf rfl rfl rfl rfl)
  unfold Machine.execOwnWindowClose
  split
  · rename_i hf
    refine .next (hclosed _ ?_ ?_)
    · split
      · exact h.kept (.same rfl)
      · exact h
    · split <;> exact hf
  · exact .next h

end

end Sys2Proof.Machine
end
section
/-!
RESET held, the cold reset, and the law of every step: O18. While RESET is held no command but the cold reset moves anything
the laws speak of; the cold reset answers a state that meets them whatever it finds.
-/

namespace Sys2Proof.Machine

/-! ### RESET held (R79, R132) -/

/-- RESET is held, with the block as it holds it. -/
structure ResetHeld (s : State) : Prop where
  held : inReset s = true
  units : HeldInReset s

section

variable {s : State} (h : ResetHeld s)
include h

/-- Every unit at its reset value satisfies the table, with RUNP negated. -/
theorem ResetHeld.sound : Sound s := by
  obtain ⟨-, hseq, -, hroster, hcon, -, -, -, -, htransmitter, -⟩ := h.units
  exact {
    silent := fun _ => by rw [OutboundClear, hcon]; exact ⟨rfl, rfl, rfl, rfl, htransmitter⟩
    noTrip := fun _ => by rw [hseq]
    dormant := fun hd => by simp [hseq] at hd
    held := fun _ => h.units
    unconfigured := fun _ hr => by simp [h.held] at hr
    permit := fun hs => by simp [hseq, SeqState.session] at hs
    running := fun hs => by simp [hseq] at hs
    speed := fun hs => by simp [hseq, SeqState.session] at hs
    pace := fun hs => by simp [hseq, SeqState.session] at hs
    unadmitted := fun x hx => by simp [hseq] at hx
    emergency := by rw [hseq]; rfl
    shed := by rw [hseq]; rfl
    roster := fun _ => by rw [hroster, hseq]; rfl
    standing := fun _ _ => by rw [hseq]; exact ⟨rfl, rfl, rfl⟩ }

theorem ResetHeld.seq : s.seq = { runp := false, spd := .p25 } := by
  obtain ⟨-, hseq, -⟩ := h.units
  exact hseq

theorem ResetHeld.con : s.con = {} := by
  obtain ⟨-, -, -, -, hcon, -⟩ := h.units
  exact hcon

theorem ResetHeld.link : s.link = {} := by
  obtain ⟨-, -, -, -, -, hlink, -⟩ := h.units
  exact hlink

theorem ResetHeld.supply : s.supply = { trn := s.supply.trn, gok := s.supply.gok, capCode := s.supply.capCode } := by
  obtain ⟨-, -, -, -, -, -, hsupply, -⟩ := h.units
  exact hsupply

/-- A raw contact changes; no debounce is timed (R61, R63, R64). -/
theorem ResetHeld.contact {p : Pins} {m : SupplyMonitor} (hp : p.reset = s.pins.reset) (hm : m = s.supply) :
    ResetHeld { s with pins := p, supply := m } := by
  subst hm
  exact ⟨(congrArg (· == .asserted) hp).trans h.held, h.units⟩

/-- The line goes on, unread. -/
theorem ResetHeld.line {u : LineUnit} (hactive : u.active = false) (hgap : u.awaitingGap = true)
    (htransmitter : u.transmitter = none) (hlong : u.longTimer = .stopped) (hoctets : u.octets = [])
    (hend : u.endReference = none) (herror : u.lastError = .none) : ResetHeld { s with line := u } := by
  obtain ⟨hconfig, hseq, hadm, hroster, hcon, hlink, hsupply, -⟩ := h.units
  exact ⟨h.held, hconfig, hseq, hadm, hroster, hcon, hlink, hsupply, hactive, hgap, htransmitter, hlong, hoctets, hend,
    herror⟩

theorem ResetHeld.octetsArrive : octetsArrive s = s := by
  have hidle : { s.link with receiver := .idle } = s.link := by rw [h.link]
  simp [Machine.octetsArrive, linkReady, loseRequest, h.held, hidle]

theorem ResetHeld.takeRequest (code : Nat) (early : Bool) (act : State → State × Answer) : takeRequest code early act s = s := by
  simp [Machine.takeRequest, h.octetsArrive, h.link]

theorem ResetHeld.discardFrame : discardFrame s = s := by simp [Machine.discardFrame, h.octetsArrive, h.link]

theorem ResetHeld.loseRequest : loseRequest s = s := by
  have hidle : { s.link with receiver := .idle } = s.link := by rw [h.link]
  simp [Machine.loseRequest, h.held, hidle]

/-- No timer of the supply monitor runs. -/
theorem ResetHeld.supplyIdle : s.supply.trnTimer = .stopped ∧ s.supply.gokTimer = .stopped ∧ s.supply.candidate = none ∧
    s.supply.capTimer = .stopped ∧ s.supply.absenceTimer = .stopped ∧ s.supply.inWindowTimer = .stopped ∧
    s.supply.underTimer = .stopped ∧ s.supply.settle = .stopped ∧ s.supply.holdTimer = .stopped := by
  rw [h.supply]
  exact ⟨rfl, rfl, rfl, rfl, rfl, rfl, rfl, rfl, rfl⟩

/-- No command but a cold reset moves a block whose RESET is held, beyond its contacts and its line. -/
theorem ResetHeld.exec {i : Instr} (hi : ∀ pins, i ≠ .coldReset pins) : NextMeets ResetHeld (exec i s) := by
  have hsame {o : Host.Outcome State Fault Refusal} (ho : o = .next s) : NextMeets ResetHeld o := ho ▸ .next h
  have hrequest (code : Nat) (early : Bool) (act : State → State × Answer) :
      NextMeets ResetHeld (.next (Machine.takeRequest code early act s)) := hsame (by rw [h.takeRequest])
  obtain ⟨htrn, hgok, hcandidate, hcap, habsence, hwindow, hunder, hsettle, hhold⟩ := h.supplyIdle
  obtain ⟨-, -, hadm, hroster, -, -, -, hactive, hgap, htransmitter, hlong, hoctets, hend, herror⟩ := h.units
  have hr := h.held
  have hseq := h.seq
  have hcon := h.con
  cases i with
  | coldReset pins => exact absurd rfl (hi pins)
  | configure record => exact hsame (by simp [Machine.exec, execConfigure, h.takeRequest, h.discardFrame])
  | query => exact hrequest _ _ _
  | sense => exact hsame (by simp [Machine.exec, execSense, h.octetsArrive, h.link])
  | clearConditions => exact hrequest _ _ _
  | readObserved => exact hrequest _ _ _
  | readStation station => exact hrequest _ _ _
  | carReport p l o r => exact hrequest _ _ _
  | restart => exact hrequest _ _ _
  | tripRequest d l r => exact hrequest _ _ _
  | tripCancel tripId => exact hrequest _ _ _
  | tripEnd i p l r => exact hrequest _ _ _
  | serviceSelect v r => exact hrequest _ _ _
  | callEvent source r => exact hrequest _ _ _
  | unknownRequestCode code fields => exact hrequest _ _ _
  | requestDiscarded cause =>
    exact hsame (by simp [Machine.exec, execRequestDiscarded, h.octetsArrive, h.loseRequest, h.discardFrame])
  | requestGapExpiry => exact hsame (by simp [Machine.exec, execRequestGapExpiry, h.octetsArrive, linkQuiet, h.link])
  | discardQuietExpiry => exact hsame (by simp [Machine.exec, execDiscardQuietExpiry, h.link])
  | replySent => exact hsame (by simp [Machine.exec, execReplySent, h.link])
  | trnChange reading => exact .next (h.contact rfl (by rw [if_pos (.inl hr), ← htrn]))
  | trnDebounceExpiry => exact hsame (by simp [Machine.exec, execTrnDebounceExpiry, htrn])
  | gokChange reading => exact .next (h.contact rfl (by rw [if_pos (.inl hr), ← hgok]))
  | gokDebounceExpiry => exact hsame (by simp [Machine.exec, execGokDebounceExpiry, hgok])
  | capChange code => exact .next (h.contact rfl (by rw [if_pos (.inl hr), ← hcandidate, ← hcap]))
  | capDebounceExpiry => exact hsame (by simp [Machine.exec, execCapDebounceExpiry, hcandidate])
  | fsnPulse period => exact hsame (by simp [Machine.exec, execFsnPulse, hr])
  | absenceExpiry => exact hsame (by simp [Machine.exec, execAbsenceExpiry, habsence])
  | inWindowHalfSecond => exact hsame (by simp [Machine.exec, execInWindowHalfSecond, hwindow])
  | underTimerExpiry => exact hsame (by simp [Machine.exec, execUnderTimerExpiry, hunder])
  | capacityHoldExpiry => exact hsame (by simp [Machine.exec, execCapacityHoldExpiry, SupplyMonitor.holding, hhold])
  | settleTimerExpiry => exact hsame (by simp [Machine.exec, execSettleTimerExpiry, hsettle])
  | lineActivityStart =>
    simp only [Machine.exec, execLineActivityStart, hr, if_true]
    exact .next (h.line rfl rfl rfl rfl rfl rfl rfl)
  | longDominantExpiry => exact hsame (by simp [Machine.exec, execLongDominantExpiry, hr])
  | endOfActivity changes =>
    simp only [Machine.exec, execEndOfActivity, hactive, Bool.false_eq_true, if_false]
    exact .next (h.line hactive hgap htransmitter hlong hoctets hend herror)
  | roundClose => exact hsame (by simp [Machine.exec, execRoundClose, hcon])
  | slotExpiry => exact hsame (by simp [Machine.exec, execSlotExpiry, hcon])
  | readbackMismatch => exact hsame (by simp [Machine.exec, execReadbackMismatch, htransmitter])
  | attemptJoined => exact hsame (by simp [Machine.exec, execAttemptJoined, htransmitter])
  | presenceDueExpiry => exact hsame (by simp [Machine.exec, execPresenceDueExpiry, hcon])
  | recordStale station => exact hsame (by simp [Machine.exec, execRecordStale, hroster, findRecord])
  | startWindowExpiry => exact hsame (by simp [Machine.exec, execStartWindowExpiry, hseq])
  | joinTimerExpiry => exact hsame (by simp [Machine.exec, execJoinTimerExpiry, hseq])
  | occupancyHoldExpiry => exact hsame (by simp [Machine.exec, execOccupancyHoldExpiry, hseq])
  | runLimitExpiry => exact hsame (by simp [Machine.exec, execRunLimitExpiry, hseq])
  | landingDwellExpiry => exact hsame (by simp [Machine.exec, execLandingDwellExpiry, hseq])
  | idleTimerExpiry => exact hsame (by simp [Machine.exec, execIdleTimerExpiry, hseq])
  | agingExpiry => exact hsame (by simp [Machine.exec, execAgingExpiry, hseq])
  | patienceExpiry => exact hsame (by simp [Machine.exec, execPatienceExpiry, hadm])
  | shedHoldExpiry => exact hsame (by simp [Machine.exec, execShedHoldExpiry, hseq])
  | fallbackTripStart => exact hsame (by simp [Machine.exec, execFallbackTripStart, hseq])
  | ownWindowClose => exact hsame (by simp [Machine.exec, execOwnWindowClose, hseq])
  | firstBaseGap => exact hsame (by simp [Machine.exec, execFirstBaseGap, hr])

end

/-! ### The cold reset (R120, R132) -/

/-- With RESET released the block is unconfigured and follows TRN (log 21). -/
theorem coldReset_lawful (straps : BitVec 6) {s : State} (hr : inReset s = false) : Lawful (coldResetState straps s) := by
  have hseq := coldSequencer_lines s.pins.trn
  have hunladen : Unladen (coldResetState straps s) := by
    refine ⟨hr, ⟨rfl, rfl, rfl, rfl, rfl⟩, ?_, ?_⟩ <;> simp [gait, ownStand, coldResetState, hseq]
  exact hunladen.outside (by simp [coldResetState, hseq, SeqState.session]) (by simp [coldResetState, hseq])
    (by simp [coldResetState, hseq, resetSupply]) (by simp [coldResetState, hseq, resetSupply])
    (by simp [coldResetState, hseq]) (by simp [coldResetState, hseq]) rfl

theorem execColdReset_tableSound (pins : ResetPins) (s : State) : NextMeets Sound (execColdReset pins s) := by
  obtain ⟨straps, reading⟩ := pins
  cases reading with
  | asserted =>
    rw [execColdReset_asserted]
    exact .next (ResetHeld.sound ⟨rfl, rfl, rfl, rfl, rfl, rfl, rfl, rfl, rfl, rfl, rfl, rfl, rfl, rfl, rfl⟩)
  | released => exact .next (coldReset_lawful straps rfl).sound

/-! ### Every command -/

theorem Lawful.exec {i : Instr} {s : State} (h : Lawful s) (hi : ∀ pins, i ≠ .coldReset pins) :
    NextMeets Lawful (exec i s) := by
  cases i with
  | coldReset pins => exact absurd rfl (hi pins)
  | configure record => exact h.execConfigure record
  | query => exact .next (h.takeRequest (fun u hu => hu.kept (.same rfl)) ..)
  | sense => exact h.execSense
  | clearConditions => exact .next (h.takeRequest (fun u hu => hu.kept (.same rfl)) ..)
  | readObserved => exact .next (h.takeRequest (fun u hu => hu.judgeReadObserved) ..)
  | readStation station => exact .next (h.takeRequest (fun u hu => by rw [judgeReadStation_keeps]; exact hu) ..)
  | carReport p l o r => exact .next (h.takeRequest (fun u hu => hu.judgeReport p l o r) ..)
  | restart => exact .next (h.takeRequest (fun u hu => restartState_lawful hu.released) ..)
  | tripRequest d l r => exact .next (h.takeRequest (fun u hu => hu.judgeTripRequest d l r) ..)
  | tripCancel tripId => exact .next (h.takeRequest (fun u hu => hu.judgeTripCancel tripId) ..)
  | tripEnd i p l r => exact .next (h.takeRequest (fun u hu => hu.judgeTripEnd i p l r) ..)
  | serviceSelect v r => exact .next (h.takeRequest (fun u hu => hu.judgeServiceSelect v r) ..)
  | callEvent source r => exact .next (h.takeRequest (fun u hu => hu.judgeCallEvent source r) ..)
  | unknownRequestCode code fields => exact .next (h.takeRequest (fun u hu => hu) ..)
  | requestDiscarded cause => exact h.execRequestDiscarded cause
  | requestGapExpiry => exact .next (h.kept ((octetsArrive_laws s).trans (linkQuiet_laws _)))
  | discardQuietExpiry => exact h.execDiscardQuietExpiry
  | replySent => exact h.execReplySent
  | trnChange reading => exact h.execTrnChange reading
  | trnDebounceExpiry => exact h.execTrnDebounceExpiry
  | gokChange reading => exact h.execGokChange reading
  | gokDebounceExpiry => exact h.execGokDebounceExpiry
  | capChange code => exact h.execCapChange code
  | capDebounceExpiry => exact h.execCapDebounceExpiry
  | fsnPulse period => exact h.execFsnPulse period
  | absenceExpiry => exact h.execAbsenceExpiry
  | inWindowHalfSecond => exact h.execInWindowHalfSecond
  | underTimerExpiry => exact h.execUnderTimerExpiry
  | capacityHoldExpiry => exact h.execCapacityHoldExpiry
  | settleTimerExpiry => exact h.execSettleTimerExpiry
  | lineActivityStart => exact h.execLineActivityStart
  | longDominantExpiry => exact h.execLongDominantExpiry
  | endOfActivity changes => exact h.execEndOfActivity changes
  | roundClose => exact h.execRoundClose
  | slotExpiry => exact h.execSlotExpiry
  | readbackMismatch => exact h.execReadbackMismatch
  | attemptJoined => exact h.execAttemptJoined
  | presenceDueExpiry => exact h.execPresenceDueExpiry
  | recordStale station => exact h.execRecordStale station
  | startWindowExpiry => exact h.execStartWindowExpiry
  | joinTimerExpiry => exact h.execJoinTimerExpiry
  | occupancyHoldExpiry => exact h.execOccupancyHoldExpiry
  | runLimitExpiry => exact h.execRunLimitExpiry
  | landingDwellExpiry => exact h.execLandingDwellExpiry
  | idleTimerExpiry => exact h.execIdleTimerExpiry
  | agingExpiry => exact h.execAgingExpiry
  | patienceExpiry => exact h.execPatienceExpiry
  | shedHoldExpiry => exact h.execShedHoldExpiry
  | fallbackTripStart => exact h.execFallbackTripStart
  | ownWindowClose => exact h.execOwnWindowClose
  | firstBaseGap => exact h.execFirstBaseGap

/-- A sound state is held in reset or lawful. -/
theorem Sound.held_or_lawful {s : State} (h : Sound s) : ResetHeld s ∨ Lawful s := by
  cases hr : inReset s
  · exact .inr (h.lawful hr)
  · exact .inl ⟨hr, h.held hr⟩

theorem exec_tableSound (i : Instr) {s : State} (h : ResetHeld s ∨ Lawful s) : NextMeets Sound (exec i s) := by
  by_cases hi : ∀ pins, i ≠ .coldReset pins
  · rcases h with h | h
    · exact fun t ht => (h.exec hi t ht).sound
    · exact fun t ht => (h.exec hi t ht).sound
  · obtain ⟨pins, rfl⟩ : ∃ pins, i = .coldReset pins := by simpa using hi
    exact execColdReset_tableSound pins s

/-- The clock and the queue are none of the block's units. -/
theorem held_or_lawful_moved {s : State} (h : ResetHeld s ∨ Lawful s) (now : Nat) (pending : List Instr) :
    ResetHeld { s with now := now, pending := pending } ∨ Lawful { s with now := now, pending := pending } :=
  h.imp (fun h => ⟨h.held, h.units⟩) fun h => h.kept (.same rfl)

/-- Settles O18: a step of a block held in reset leaves it held, and with RESET released each command goes from a lawful
state to one; the cold reset answers a sound state from any. -/
theorem soundKept : Obligations.SoundKept := by
  intro s t h hstep
  unfold step at hstep
  split at hstep
  · cases hstep
    rcases held_or_lawful_moved h.held_or_lawful (s.now + Config.bitTime) s.pending with hr | hl
    · exact hr.sound
    · exact hl.sound
  · rename_i c rest _
    exact exec_tableSound c (held_or_lawful_moved h.held_or_lawful s.now rest) t hstep

end Sys2Proof.Machine
end
